-- ==== Sys2Proof/Word.lean ====
section
/-! DEFINITION. The words of the FXU: data registers are 64-bit patterns (10_state.md R21), command words and control
registers are 32-bit patterns (30_encoding.md R80, 10_state.md section 4). -/

namespace Sys2Proof

/-- A data register's contents (R21). -/
abbrev Word64 := BitVec 64

/-- A command word or a control register (R80, section 4 of 10_state.md). -/
abbrev Word32 := BitVec 32

/-- A data register number, 0..7 (R21, R83). -/
abbrev RegId := Fin 8

/-- A byte offset of the 256-byte host window (R50). -/
abbrev Offset := Fin 256

end Sys2Proof
end

