-- ==== Sys2Proof/Config.lean ====
section
/-! DEFINITION. What the platform fixes (00_scope.md R7) and the free values of 93_implementation_defined.md. None of them
has a body, so nothing can be proved of their values. -/

namespace Sys2Proof

/-- `FXU_BASE` divided by 256: the base of the host window is "a multiple of 256" (R7, U12; log 3). -/
opaque Config.fxuBasePage : Nat

/-- The data the n-th rejected access returns: "the data a rejected read returns is unspecified" (R54, U10; log 1). -/
opaque Config.rejectedReadData : Nat → Word64

/-- `BUS_ERROR_RESPONSE`: how the host bus reports the n-th rejected access (R7, R54, U11; log 2). -/
opaque Config.busErrorResponse : Nat → Nat

end Sys2Proof
end

