-- ==== Sys2Proof/Syntax.lean ====
section
/-! DEFINITION. The 13 commands of the opcode map (30_encoding.md R84), one constructor a row, and the number formats. -/

namespace Sys2Proof

/-- The two number formats (00_scope.md R2). -/
inductive Fmt where
  /-- FixedPoint32: 32-bit raw, 3 decimal places. -/
  | fx32
  /-- FixedPoint64: 64-bit raw, 6 decimal places. -/
  | fx64
deriving DecidableEq, Repr

/-- The commands of R84. `rd`, `rs1`, `rs2` are register numbers (R83); `idx` is SCALE's index, which a word holds in five
bits (WellFormed says so). -/
inductive Instr where
  | addFx32 (rd rs1 rs2 : RegId)
  | addFx64 (rd rs1 rs2 : RegId)
  | subFx32 (rd rs1 rs2 : RegId)
  | subFx64 (rd rs1 rs2 : RegId)
  | mulFx32 (rd rs1 rs2 : RegId)
  | mulFx64 (rd rs1 rs2 : RegId)
  | divFx32 (rd rs1 rs2 : RegId)
  | divFx64 (rd rs1 rs2 : RegId)
  | macFx32 (rd rs1 rs2 : RegId)
  | macFx64 (rd rs1 rs2 : RegId)
  | sqrtFx32 (rd rs1 : RegId)
  | sqrtFx64 (rd rs1 : RegId)
  | scale (rd : RegId) (idx : Nat)
deriving DecidableEq, Repr

end Sys2Proof
end

