-- ==== Sys2Proof/WellFormed.lean ====
section
/-! DEFINITION. Which instruction terms have a word: every register number fits its field by its type, and SCALE's index must
fit `imm5` ("An assembler rejects `idx` outside 0..31", 30_encoding.md R89; indices 19..31 encode and fault, R86). -/

namespace Sys2Proof

/-- The instruction has an encoding (R83: `idx = zext_5(w[19:15])`, 0..31). -/
def wellFormed : Instr → Bool
  | .addFx32 _ _ _ => true
  | .addFx64 _ _ _ => true
  | .subFx32 _ _ _ => true
  | .subFx64 _ _ _ => true
  | .mulFx32 _ _ _ => true
  | .mulFx64 _ _ _ => true
  | .divFx32 _ _ _ => true
  | .divFx64 _ _ _ => true
  | .macFx32 _ _ _ => true
  | .macFx64 _ _ _ => true
  | .sqrtFx32 _ _ => true
  | .sqrtFx64 _ _ => true
  | .scale _ idx => decide (idx < 32)

end Sys2Proof
end

