-- ==== Sys2Proof/Decode.lean ====
section
/-! DEFINITION. Decoding and encoding of the 32-bit command word (30_encoding.md R80 to R87). Decoding is total: a word that
matches no row of the opcode map is `none`, the illegal word of R86. -/

namespace Sys2Proof

/-- The field `w[hi:lo]` read as an unsigned number (00_scope.md R8). -/
def bitField (w : Word32) (hi lo : Nat) : Nat := w.toNat / 2 ^ lo % 2 ^ (hi + 1 - lo)

/-- A three-bit register field (R83). -/
def regField (w : Word32) (lo : Nat) : RegId := Fin.ofNat 8 (bitField w (lo + 2) lo)

/-- `rd = zext_3(w[8:6])` (R83). -/
def rdField (w : Word32) : RegId := regField w 6

/-- `rs1 = zext_3(w[11:9])` (R83). -/
def rs1Field (w : Word32) : RegId := regField w 9

/-- `rs2 = zext_3(w[14:12])` (R83). -/
def rs2Field (w : Word32) : RegId := regField w 12

/-- `idx = zext_5(w[19:15])` (R83). -/
def imm5Field (w : Word32) : Nat := bitField w 19 15

/-- One row of the opcode map (R84): `w` is that instruction exactly when `(w & mask) == match`. -/
structure OpcodeRow where
  mask : Word32
  pattern : Word32
  build : Word32 → Instr

/-- The row matches the word (R84). -/
def OpcodeRow.selects (r : OpcodeRow) (w : Word32) : Bool := w &&& r.mask == r.pattern

/-- The three-register form of R81. -/
def regForm (mk : RegId → RegId → RegId → Instr) (w : Word32) : Instr := mk (rdField w) (rs1Field w) (rs2Field w)

/-- The opcode map of R84, its rows in the table's order. -/
def opcodeRows : List OpcodeRow :=
  [ ⟨0xFFFF803F#32, 0x00000001#32, regForm .addFx32⟩,
    ⟨0xFFFF803F#32, 0x00000011#32, regForm .addFx64⟩,
    ⟨0xFFFF803F#32, 0x00000002#32, regForm .subFx32⟩,
    ⟨0xFFFF803F#32, 0x00000012#32, regForm .subFx64⟩,
    ⟨0xFFFF803F#32, 0x00000003#32, regForm .mulFx32⟩,
    ⟨0xFFFF803F#32, 0x00000013#32, regForm .mulFx64⟩,
    ⟨0xFFFF803F#32, 0x00000004#32, regForm .divFx32⟩,
    ⟨0xFFFF803F#32, 0x00000014#32, regForm .divFx64⟩,
    ⟨0xFFFF803F#32, 0x00000005#32, regForm .macFx32⟩,
    ⟨0xFFFF803F#32, 0x00000015#32, regForm .macFx64⟩,
    ⟨0xFFFFF03F#32, 0x00000006#32, fun w => .sqrtFx32 (rdField w) (rs1Field w)⟩,
    ⟨0xFFFFF03F#32, 0x00000016#32, fun w => .sqrtFx64 (rdField w) (rs1Field w)⟩,
    ⟨0xFFF07E3F#32, 0x00000017#32, fun w => .scale (rdField w) (imm5Field w)⟩ ]

/-- The instruction a command word is, or `none` for an illegal word (R84, R86). -/
def decode (w : Word32) : Option Instr := (opcodeRows.find? (·.selects w)).map (·.build w)

/-- R85: `w = (rs2 << 12) | (rs1 << 9) | (rd << 6) | (fmt << 4) | op`, with the fields as numbers; `low` is `(fmt << 4) | op`. -/
def encodeFields (imm5 rs2 rs1 rd low : Nat) : Word32 :=
  BitVec.ofNat 32 ((imm5 % 32) <<< 15 ||| rs2 <<< 12 ||| rs1 <<< 9 ||| rd <<< 6 ||| low)

/-- The command word of an instruction (R84, R85). An ill-formed SCALE index is cut to its five bits. -/
def encode : Instr → Word32
  | .addFx32 rd rs1 rs2 => encodeFields 0 rs2 rs1 rd (0 <<< 4 ||| 1)
  | .addFx64 rd rs1 rs2 => encodeFields 0 rs2 rs1 rd (1 <<< 4 ||| 1)
  | .subFx32 rd rs1 rs2 => encodeFields 0 rs2 rs1 rd (0 <<< 4 ||| 2)
  | .subFx64 rd rs1 rs2 => encodeFields 0 rs2 rs1 rd (1 <<< 4 ||| 2)
  | .mulFx32 rd rs1 rs2 => encodeFields 0 rs2 rs1 rd (0 <<< 4 ||| 3)
  | .mulFx64 rd rs1 rs2 => encodeFields 0 rs2 rs1 rd (1 <<< 4 ||| 3)
  | .divFx32 rd rs1 rs2 => encodeFields 0 rs2 rs1 rd (0 <<< 4 ||| 4)
  | .divFx64 rd rs1 rs2 => encodeFields 0 rs2 rs1 rd (1 <<< 4 ||| 4)
  | .macFx32 rd rs1 rs2 => encodeFields 0 rs2 rs1 rd (0 <<< 4 ||| 5)
  | .macFx64 rd rs1 rs2 => encodeFields 0 rs2 rs1 rd (1 <<< 4 ||| 5)
  | .sqrtFx32 rd rs1 => encodeFields 0 0 rs1 rd (0 <<< 4 ||| 6)
  | .sqrtFx64 rd rs1 => encodeFields 0 0 rs1 rd (1 <<< 4 ||| 6)
  | .scale rd idx => encodeFields idx 0 0 rd (1 <<< 4 ||| 7)

/-- The destination register of an instruction (R21). -/
def Instr.dest : Instr → RegId
  | .addFx32 rd _ _ => rd
  | .addFx64 rd _ _ => rd
  | .subFx32 rd _ _ => rd
  | .subFx64 rd _ _ => rd
  | .mulFx32 rd _ _ => rd
  | .mulFx64 rd _ _ => rd
  | .divFx32 rd _ _ => rd
  | .divFx64 rd _ _ => rd
  | .macFx32 rd _ _ => rd
  | .macFx64 rd _ _ => rd
  | .sqrtFx32 rd _ => rd
  | .sqrtFx64 rd _ => rd
  | .scale rd _ => rd

/-- The register an instruction's `rs1` field names, where its form has one (R81). -/
def Instr.src1 : Instr → Option RegId
  | .addFx32 _ rs1 _ => some rs1
  | .addFx64 _ rs1 _ => some rs1
  | .subFx32 _ rs1 _ => some rs1
  | .subFx64 _ rs1 _ => some rs1
  | .mulFx32 _ rs1 _ => some rs1
  | .mulFx64 _ rs1 _ => some rs1
  | .divFx32 _ rs1 _ => some rs1
  | .divFx64 _ rs1 _ => some rs1
  | .macFx32 _ rs1 _ => some rs1
  | .macFx64 _ rs1 _ => some rs1
  | .sqrtFx32 _ rs1 => some rs1
  | .sqrtFx64 _ rs1 => some rs1
  | .scale _ _ => none

/-- The register an instruction's `rs2` field names, where its form has one (R81). -/
def Instr.src2 : Instr → Option RegId
  | .addFx32 _ _ rs2 => some rs2
  | .addFx64 _ _ rs2 => some rs2
  | .subFx32 _ _ rs2 => some rs2
  | .subFx64 _ _ rs2 => some rs2
  | .mulFx32 _ _ rs2 => some rs2
  | .mulFx64 _ _ rs2 => some rs2
  | .divFx32 _ _ rs2 => some rs2
  | .divFx64 _ _ rs2 => some rs2
  | .macFx32 _ _ rs2 => some rs2
  | .macFx64 _ _ rs2 => some rs2
  | .sqrtFx32 _ _ => none
  | .sqrtFx64 _ _ => none
  | .scale _ _ => none

/-- The accumulator source: "for MAC also the accumulator source" (R81, R21). -/
def Instr.srcAcc : Instr → Option RegId
  | .addFx32 _ _ _ => none
  | .addFx64 _ _ _ => none
  | .subFx32 _ _ _ => none
  | .subFx64 _ _ _ => none
  | .mulFx32 _ _ _ => none
  | .mulFx64 _ _ _ => none
  | .divFx32 _ _ _ => none
  | .divFx64 _ _ _ => none
  | .macFx32 rd _ _ => some rd
  | .macFx64 rd _ _ => some rd
  | .sqrtFx32 _ _ => none
  | .sqrtFx64 _ _ => none
  | .scale _ _ => none

/-- The word the opcode table's numbering gives: `nbits` bits, the bits above them zero (R80: there is one length, 32). -/
def tableWord (nbits w : Nat) : Word32 := BitVec.ofNat 32 (w % 2 ^ nbits)

/-- The decoder's reading of an opcode-table word; a command is exactly one 32-bit word (R80). -/
def decodeTableWord (nbits w : Nat) : Option Instr := if nbits ≤ 32 then decode (tableWord nbits w) else none

end Sys2Proof
end

