-- ==== Sys2Proof/Machine/State.lean ====
section
/-! DEFINITION. The machine's state: everything 10_state.md gives the FXU, the hidden state of a command in flight (R32), the
reset input and power (R240, R218), and the model's own record of the outside world (log 4, log 14, log 16). -/

namespace Sys2Proof.Machine

/-- The cause codes 0..5 of 60_exceptions.md R201; codes 6..15 are "never produced". -/
inductive Cause where
  | none
  | illegal
  | divz
  | sqrtNeg
  | scaleRange
  | sqrtOvf
deriving DecidableEq, Repr

/-- STATUS (R26) but for BUSY, which is derived from the command in flight (log 8). Reserved bits have no storage. -/
structure Status where
  done : Bool
  err : Bool
  ov : Bool
  drop : Bool
  cause : Cause
deriving DecidableEq, Repr

/-- CTRL (R28). Reserved bits have no storage. -/
structure Ctrl where
  iw64 : Bool
  doneie : Bool
  errie : Bool
deriving DecidableEq, Repr

/-- The square-root engine's working values (43_sqrt.md R170): `rem` is scaledX updated in place; `aligning` is true in step 2,
the alignment phase. -/
structure Engine where
  rem : Nat
  ans : Nat
  bit : Nat
  aligning : Bool
deriving DecidableEq, Repr

/-- The working values of the unit computing the command in flight (R32; log 7). -/
inductive Work where
  /-- Nothing beyond the operands (ADD, SUB, SCALE, and a command whose operand check fails). -/
  | direct
  /-- The multiply-divide datapath's widened intermediate. -/
  | muldiv (wide : Int)
  /-- The square-root engine. -/
  | sqrt (e : Engine)
deriving DecidableEq, Repr

/-- The hidden state held while BUSY = 1 (R32): the accepted word, the operand values read at acceptance (absent where the
command reads none), CTRL.IW64 at acceptance and the unit's working values. -/
structure Flight where
  word : Word32
  op1 : Option Word64
  op2 : Option Word64
  acc : Option Word64
  iw : Bool
  work : Work
deriving DecidableEq, Repr

/-- One host access at a window offset (20_memory.md R50 to R54): a read or a write of 8, 16, 32 or 64 bits. -/
inductive Access where
  | r8 (off : Offset)
  | r16 (off : Offset)
  | r32 (off : Offset)
  | r64 (off : Offset)
  | w8 (off : Offset) (v : BitVec 8)
  | w16 (off : Offset) (v : BitVec 16)
  | w32 (off : Offset) (v : Word32)
  | w64 (off : Offset) (v : Word64)
deriving DecidableEq, Repr

/-- What the host port answers to an access (log 14). -/
inductive Reply where
  /-- A 32-bit read's data. -/
  | data32 (v : Word32)
  /-- A 64-bit read's data. -/
  | data64 (v : Word64)
  /-- An accepted write completed. -/
  | written
  /-- A rejected read: unspecified data, and the platform's report (R54). -/
  | rejectedRead (unspecified : Word64) (report : Nat)
  /-- A rejected write: the platform's report (R54). -/
  | rejectedWrite (report : Nat)
deriving DecidableEq, Repr

/-- Who moves in a step (log 4). -/
inductive Turn where
  /-- The FXU advances the command in flight, or completes it. -/
  | fxu
  /-- The host presents its next access to the host port. -/
  | host
  /-- The platform asserts the reset input (R240), also at power-on. -/
  | assertReset
  /-- The platform releases the reset input (R240). -/
  | releaseReset
  /-- The platform takes power away (R218). -/
  | powerDown
deriving DecidableEq, Repr

/-- The reset input and the supply (R240, R218). -/
inductive Power where
  | running
  | inReset
  | off
deriving DecidableEq, Repr

/-- The machine. -/
structure State where
  /-- X0..X7 (R21). -/
  x : Vector Word64 8
  /-- STATUS (R26). -/
  status : Status
  /-- CTRL (R28). -/
  ctrl : Ctrl
  /-- ERRCMD (R29). -/
  errcmd : Word32
  /-- The command in flight; `none` while BUSY = 0 (R32). -/
  flight : Option Flight
  /-- The host access held by the interlock (R60). -/
  held : Option Access
  /-- The reset input and the supply (R240, R218). -/
  power : Power
  /-- The host's coming accesses, the next first (R59, R63). -/
  accesses : List Access
  /-- Who moves in the coming steps; empty: the synchronous reading of R243 and R247 (log 4). -/
  schedule : List Turn
  /-- The host port's answers, newest first (log 14). -/
  replies : List Reply
  /-- How many free values have been drawn (log 1). -/
  draws : Nat
deriving DecidableEq, Repr

/-- What stops the machine. -/
inductive Fault where
  /-- Raised by a host turn that presents an access while the supply is off. What a platform power-down does is the
  platform's (R218, U17). Safe: the model stops where the hardware's behaviour is not given (log 10). -/
  | accessWhilePoweredDown
deriving DecidableEq, Repr

/-- Why an instruction has no meaning. -/
inductive Refusal where
  /-- Raised only by an arm of `exec` whose instruction is not modelled; no arm is. Safe. -/
  | notModelled (mnemonic : String)
deriving DecidableEq, Repr

/-- The three outcomes of a step of this machine. -/
abbrev Result := Host.Outcome State Fault Refusal

/-- STATUS after reset: 0x00000000 (R34). -/
def Status.reset : Status := ⟨false, false, false, false, .none⟩

/-- CTRL after reset: 0x00000000 (R34). -/
def Ctrl.reset : Ctrl := ⟨false, false, false⟩

/-- The machine right after reset (R34, R241): nothing in flight, nothing held, and no host access yet. -/
def State.reset : State where
  x := Vector.replicate 8 0#64
  status := .reset
  ctrl := .reset
  errcmd := 0#32
  flight := none
  held := none
  power := .running
  accesses := []
  schedule := []
  replies := []
  draws := 0

end Sys2Proof.Machine
end

