-- ==== Sys2Proof/Machine/Ops.lean ====
section
/-! DEFINITION. The named operations over the state: the register file, completing a command, taking a fault and returning from
one, STATUS, CTRL, the interrupt line, reset, and the host port's answers. -/

namespace Sys2Proof.Machine

/-- STATUS.BUSY: "1 while a command is accepted and not yet completed" (R26; log 8). -/
def State.busy (s : State) : Bool := s.flight.isSome

/-- Read of data register Xi (R10, R21). -/
def State.readX (r : RegId) (s : State) : Word64 := s.x[r]

/-- Write of data register Xi with a 64-bit pattern (R10, R21). -/
def State.writeX (r : RegId) (v : Word64) (s : State) : State := { s with x := s.x.set r v }

/-- Completion of a command (R211, R200): `x[rd] <- r` (R10: `pat_64(r)`, so a 32-bit result is stored sign-extended, R23), OV set
where the rule says (sticky, R26), DONE set, BUSY cleared and the hidden state discarded (R32). -/
def State.complete (rd : RegId) (r : Int) (ov : Bool) (s : State) : State :=
  { s with
    x := s.x.set rd (BitVec.ofInt 64 r)
    status := { s.status with done := true, ov := s.status.ov || ov }
    flight := none }

/-- Fault entry (R207): ERR, CAUSE and ERRCMD are written, BUSY is cleared, the hidden state is discarded, "Nothing else changes". -/
def State.takeFault (c : Cause) (w : Word32) (s : State) : State :=
  { s with
    status := { s.status with err := true, cause := c }
    errcmd := w
    flight := none }

/-- Return from a fault (R210): ERR <- 0 and CAUSE <- 0; ERRCMD keeps the faulting word. -/
def State.returnFromFault (s : State) : State :=
  { s with status := { s.status with err := false, cause := .none } }

/-- A presented word is discarded because ERR = 1 (R209): only DROP changes. -/
def State.dropCommand (s : State) : State := { s with status := { s.status with drop := true } }

/-- A host write of STATUS (R27): bits 1, 3 and 4 clear DONE, OV and DROP; bit 2 returns from the fault; the rest is ignored. -/
def State.writeStatus (v : Word32) (s : State) : State :=
  let s := if v.getLsbD 2 then s.returnFromFault else s
  { s with status :=
      { s.status with
        done := s.status.done && !v.getLsbD 1
        ov := s.status.ov && !v.getLsbD 3
        drop := s.status.drop && !v.getLsbD 4 } }

/-- A host write of CTRL (R28): the three defined bits are set, the reserved ones ignored. -/
def State.writeCtrl (v : Word32) (s : State) : State :=
  { s with ctrl := ⟨v.getLsbD 0, v.getLsbD 1, v.getLsbD 2⟩ }

/-- A 4-bit cause code (R201). -/
def Cause.code : Cause → BitVec 4
  | .none => 0
  | .illegal => 1
  | .divz => 2
  | .sqrtNeg => 3
  | .scaleRange => 4
  | .sqrtOvf => 5

/-- The interrupt output (R212). -/
def State.irq (s : State) : Bool := s.status.done && s.ctrl.doneie || s.status.err && s.ctrl.errie

/-- Reset (R240): every piece of state takes its value of R34, a command in flight and a held access are abandoned. `p` is whether
the reset input is still asserted. The host's coming accesses and the record of the outside world are no FXU state. -/
def State.toReset (p : Power) (s : State) : State :=
  { State.reset with power := p, accesses := s.accesses, schedule := s.schedule, replies := s.replies, draws := s.draws }

/-- The platform takes power away (R218; log 10): the unit can complete nothing any more. -/
def State.losePower (s : State) : State := { s with power := .off, flight := none, held := none }

/-- The host port answers an access (log 14). -/
def State.answer (r : Reply) (s : State) : State := { s with replies := r :: s.replies }

/-- A rejected read (R54): no FXU state changes; the data and the report are the n-th free values (log 1, log 2). -/
def State.rejectRead (s : State) : State :=
  { s with
    replies := .rejectedRead (Config.rejectedReadData s.draws) (Config.busErrorResponse s.draws) :: s.replies
    draws := s.draws + 1 }

/-- A rejected write (R54): no FXU state changes; the report is the n-th free value (log 2). -/
def State.rejectWrite (s : State) : State :=
  { s with
    replies := .rejectedWrite (Config.busErrorResponse s.draws) :: s.replies
    draws := s.draws + 1 }

end Sys2Proof.Machine
end

