-- ==== Sys2Proof/Machine/Operands.lean ====
section
/-! DEFINITION. The integer functions of 00_scope.md R9, the formats' views of a register (10_state.md R22, R24), the operand
values of a command (R32, R33), the scale ROM (40_scale_table.md) and the datapaths: FXMUL, FXDIV (42_mul_div_mac.md) and the
square-root engine (43_sqrt.md). All arithmetic is on unbounded integers (R8). -/

namespace Sys2Proof.Machine

/-! ### R9 -/

/-- `wrap_N(v)`: the low N bits of v in two's complement. -/
def wrap (n : Nat) (v : Int) : Int := v.bmod (2 ^ n)

/-- `fits_N(v)`. -/
def fits (n : Nat) (v : Int) : Bool := decide (-(2 : Int) ^ (n - 1) ≤ v ∧ v ≤ (2 : Int) ^ (n - 1) - 1)

/-- `tdiv(n, d)`: the quotient truncated toward zero (R142). -/
def tdiv (n d : Int) : Int := Int.tdiv n d

/-! ### Formats (R2, R102) -/

/-- The raw width N of a format (R2). -/
def Fmt.width : Fmt → Nat
  | .fx32 => 32
  | .fx64 => 64

/-- The scale S of a format: `S32 = ROM[3] = 1000`, `S64 = ROM[6] = 1000000` (R102). -/
def Fmt.scale : Fmt → Int
  | .fx32 => 1000
  | .fx64 => 1000000

/-- The format's view of a register pattern: `sext_32(x[31:0])` (R22) or `sext_64(x)` (R24). -/
def Fmt.view : Fmt → Word64 → Int
  | .fx32, p => (p.extractLsb' 0 32).toInt
  | .fx64, p => p.toInt

/-! ### Operand values (R32, R33)

A command in flight computes from what it latched at acceptance; executed at the moment of its CMD write (R247) it computes from
the registers. -/

/-- The value of a source register: the latched one if a command in flight holds it, else the register's (log 17). -/
def State.source (latch : Flight → Option Word64) (r : RegId) (s : State) : Word64 :=
  (s.flight.bind latch).getD (s.readX r)

/-- Operand `a` in the command's format. -/
def State.opA (f : Fmt) (rs1 : RegId) (s : State) : Int := Fmt.view f (s.source Flight.op1 rs1)

/-- Operand `b` in the command's format. -/
def State.opB (f : Fmt) (rs2 : RegId) (s : State) : Int := Fmt.view f (s.source Flight.op2 rs2)

/-- MAC's accumulator `c` in the command's format. -/
def State.opC (f : Fmt) (rd : RegId) (s : State) : Int := Fmt.view f (s.source Flight.acc rd)

/-- CTRL.IW64 at acceptance (R32). -/
def State.iw (s : State) : Bool :=
  match s.flight with
  | some f => f.iw
  | none => s.ctrl.iw64

/-- The multiply-divide datapath's widened intermediate: the one in flight holds, else the one just computed (R32). -/
def State.widened (p : Int) (s : State) : Int :=
  match s.flight with
  | some { work := .muldiv wide, .. } => wide
  | _ => p

/-! ### The scale ROM (R100, R101) -/

/-- The 19 entries of R101. -/
def scaleRom : List Word64 :=
  [ 0x0000000000000001, 0x000000000000000A, 0x0000000000000064, 0x00000000000003E8, 0x0000000000002710,
    0x00000000000186A0, 0x00000000000F4240, 0x0000000000989680, 0x0000000005F5E100, 0x000000003B9ACA00 ] ++
  [ 0x00000002540BE400, 0x000000174876E800, 0x000000E8D4A51000, 0x000009184E72A000, 0x00005AF3107A4000,
    0x00038D7EA4C68000, 0x002386F26FC10000, 0x016345785D8A0000, 0x0DE0B6B3A7640000 ]

/-- `ROM[idx]`; `none` beyond the 19 entries (R100). -/
def romEntry (idx : Nat) : Option Word64 := scaleRom[idx]?

/-! ### FXMUL (R143) -/

/-- FXMUL's widened intermediate p: exact, but narrowed to 64 bits before the divide for FX64 with IW64 = 1. -/
def mulWide : Fmt → Bool → Int → Int → Int
  | .fx32, _, a, b => a * b
  | .fx64, false, a, b => a * b
  | .fx64, true, a, b => wrap 64 (a * b)

/-- FXMUL's result r and overflow indication, from its widened intermediate p. -/
def mulFinish : Fmt → Bool → Int → Int → Int → Int × Bool
  | .fx32, _, _, _, p => let q := tdiv p (Fmt.scale .fx32); (wrap 32 q, !fits 32 q)
  | .fx64, false, _, _, p => let q := tdiv p (Fmt.scale .fx64); (wrap 64 q, !fits 64 q)
  | .fx64, true, a, b, p => let q := tdiv p (Fmt.scale .fx64); (q, !fits 64 (a * b))

/-! ### FXDIV (R150), for b ≠ 0 -/

/-- FXDIV's scaled-up dividend n: exact, but narrowed to 64 bits for FX64 with IW64 = 1. -/
def divWide : Fmt → Bool → Int → Int
  | .fx32, _, a => a * Fmt.scale .fx32
  | .fx64, false, a => a * Fmt.scale .fx64
  | .fx64, true, a => wrap 64 (a * Fmt.scale .fx64)

/-- FXDIV's result r and overflow indication, from its scaled-up dividend n. -/
def divFinish : Fmt → Bool → Int → Int → Int → Int × Bool
  | .fx32, _, _, b, n => let q := tdiv n b; (wrap 32 q, !fits 32 q)
  | .fx64, false, _, b, n => let q := tdiv n b; (wrap 64 q, !fits 64 q)
  | .fx64, true, a, b, n => let q := tdiv n b; (wrap 64 q, !fits 64 (a * Fmt.scale .fx64) || !fits 64 q)

/-! ### The square-root engine (R170) -/

/-- Step 1: `rem <- scaledX`, `ans <- 0`, `bit <- 1 << (W - 2)`. -/
def engineStart (w scaledX : Nat) : Engine := ⟨scaledX, 0, 1 <<< (w - 2), true⟩

/-- One shift of `bit`: an alignment shift while `bit > rem` (step 2), else one iteration of the main loop (step 3); nothing once
`bit = 0` (step 4). -/
def Engine.advance (e : Engine) : Engine :=
  if e.bit = 0 then e
  else if e.aligning && decide (e.bit > e.rem) then { e with bit := e.bit >>> 2 }
  else
    let candidate := e.ans + e.bit
    if e.rem ≥ candidate then ⟨e.rem - candidate, (e.ans >>> 1) + e.bit, e.bit >>> 2, false⟩
    else ⟨e.rem, e.ans >>> 1, e.bit >>> 2, false⟩

/-- `n` shifts of `bit`. -/
def Engine.run : Nat → Engine → Engine
  | 0, e => e
  | n + 1, e => Engine.run n e.advance

/-- `ISQRT_W(scaledX)`: the loops together make exactly W/2 shifts of `bit` (R171 item 2). -/
def isqrtEngine (w scaledX : Nat) : Nat := (Engine.run (w / 2) (engineStart w scaledX)).ans

/-- The engine's answer: the one the command in flight computed, else the engine run on scaledX (R32). -/
def State.root (w scaledX : Nat) (s : State) : Nat :=
  match s.flight with
  | some { work := .sqrt e, .. } => e.ans
  | _ => isqrtEngine w scaledX

end Sys2Proof.Machine
end

