-- ==== Sys2Proof/Machine/Flags.lean ====
section
/-! DEFINITION. The flag computations: STATUS.OV of a narrow-back (42_mul_div_mac.md R141, 41_add_sub.md R125), and STATUS and CTRL
as the words a host reads (10_state.md R26, R28). -/

namespace Sys2Proof.Machine

/-- The OV condition of a narrow-back to N bits: "exactly when not fits_N(q)" (R141, R125). -/
def overflows (n : Nat) (v : Int) : Bool := !fits n v

/-- A command whose result is the exact integer `v` narrowed back to N bits (R125, R141, R219); `ov` is an overflow already
indicated. -/
def State.completeNarrow (n : Nat) (rd : RegId) (v : Int) (ov : Bool) (s : State) : State :=
  s.complete rd (wrap n v) (ov || overflows n v)

/-- STATUS as a 32-bit read returns it (R26): bits 31:12 and 7:5 read as 0. -/
def State.statusWord (s : State) : Word32 :=
  0#20 ++ s.status.cause.code ++ 0#3 ++ BitVec.ofBool s.status.drop ++ BitVec.ofBool s.status.ov ++
    BitVec.ofBool s.status.err ++ BitVec.ofBool s.status.done ++ BitVec.ofBool s.busy

/-- CTRL as a 32-bit read returns it (R28): bits 31:3 read as 0. -/
def State.ctrlWord (s : State) : Word32 :=
  0#29 ++ BitVec.ofBool s.ctrl.errie ++ BitVec.ofBool s.ctrl.doneie ++ BitVec.ofBool s.ctrl.iw64

end Sys2Proof.Machine
end

