-- ==== Sys2Proof/Machine/AddSub.lean ====
section
/-! DEFINITION. Addition and subtraction (41_add_sub.md). Scale alignment is the identity (R120). -/

namespace Sys2Proof.Machine

/-- ADD.FX32 (R121). -/
def execAddFx32 (rd rs1 rs2 : RegId) (s : State) : Result :=
  .next (s.completeNarrow 32 rd (s.opA .fx32 rs1 + s.opB .fx32 rs2) false)

/-- ADD.FX64 (R122). -/
def execAddFx64 (rd rs1 rs2 : RegId) (s : State) : Result :=
  .next (s.completeNarrow 64 rd (s.opA .fx64 rs1 + s.opB .fx64 rs2) false)

/-- SUB.FX32 (R123). -/
def execSubFx32 (rd rs1 rs2 : RegId) (s : State) : Result :=
  .next (s.completeNarrow 32 rd (s.opA .fx32 rs1 - s.opB .fx32 rs2) false)

/-- SUB.FX64 (R124). -/
def execSubFx64 (rd rs1 rs2 : RegId) (s : State) : Result :=
  .next (s.completeNarrow 64 rd (s.opA .fx64 rs1 - s.opB .fx64 rs2) false)

end Sys2Proof.Machine
end

