-- ==== Sys2Proof/Machine/MulDiv.lean ====
section
/-! DEFINITION. Multiplication, division and multiply-accumulate (42_mul_div_mac.md). -/

namespace Sys2Proof.Machine

/-- FXMUL (R143) on the command's widened intermediate. -/
def State.product (f : Fmt) (iw : Bool) (a b : Int) (s : State) : Int × Bool :=
  mulFinish f iw a b (s.widened (mulWide f iw a b))

/-- FXDIV (R150) on the command's scaled-up dividend; for b ≠ 0. -/
def State.quotient (f : Fmt) (iw : Bool) (a b : Int) (s : State) : Int × Bool :=
  divFinish f iw a b (s.widened (divWide f iw a))

/-- MUL in one format: write FXMUL's result. -/
def State.multiply (f : Fmt) (iw : Bool) (rd : RegId) (a b : Int) (s : State) : State :=
  let (r, ov) := s.product f iw a b
  s.complete rd r ov

/-- DIV in one format (R146, R147): DIVZ for a zero divisor, else write FXDIV's result. -/
def State.divide (f : Fmt) (iw : Bool) (rd : RegId) (a b : Int) (w : Word32) (s : State) : State :=
  if b = 0 then s.takeFault .divz w
  else
    let (r, ov) := s.quotient f iw a b
    s.complete rd r ov

/-- MAC in one format (R148, R149): the product is narrowed back before it is added to the accumulator. -/
def State.accumulate (f : Fmt) (iw : Bool) (rd : RegId) (c a b : Int) (s : State) : State :=
  let (m, ov1) := s.product f iw a b
  s.completeNarrow (Fmt.width f) rd (c + m) ov1

/-- MUL.FX32 (R144). -/
def execMulFx32 (rd rs1 rs2 : RegId) (s : State) : Result :=
  .next (s.multiply .fx32 false rd (s.opA .fx32 rs1) (s.opB .fx32 rs2))

/-- MUL.FX64 (R145). -/
def execMulFx64 (rd rs1 rs2 : RegId) (s : State) : Result :=
  .next (s.multiply .fx64 s.iw rd (s.opA .fx64 rs1) (s.opB .fx64 rs2))

/-- DIV.FX32 (R146). -/
def execDivFx32 (rd rs1 rs2 : RegId) (s : State) : Result :=
  .next (s.divide .fx32 false rd (s.opA .fx32 rs1) (s.opB .fx32 rs2) (encode (.divFx32 rd rs1 rs2)))

/-- DIV.FX64 (R147). -/
def execDivFx64 (rd rs1 rs2 : RegId) (s : State) : Result :=
  .next (s.divide .fx64 s.iw rd (s.opA .fx64 rs1) (s.opB .fx64 rs2) (encode (.divFx64 rd rs1 rs2)))

/-- MAC.FX32 (R148). -/
def execMacFx32 (rd rs1 rs2 : RegId) (s : State) : Result :=
  .next (s.accumulate .fx32 false rd (s.opC .fx32 rd) (s.opA .fx32 rs1) (s.opB .fx32 rs2))

/-- MAC.FX64 (R149). -/
def execMacFx64 (rd rs1 rs2 : RegId) (s : State) : Result :=
  .next (s.accumulate .fx64 s.iw rd (s.opC .fx64 rd) (s.opA .fx64 rs1) (s.opB .fx64 rs2))

end Sys2Proof.Machine
end

