-- ==== Sys2Proof/Machine/Scale.lean ====
section
/-! DEFINITION. The SCALE command (40_scale_table.md R103). -/

namespace Sys2Proof.Machine

/-- SCALE (R103): the ROM entry as a full 64-bit integer; SCALE_RANGE where the ROM has none (idx > 18). OV is never set. -/
def execScale (rd : RegId) (idx : Nat) (s : State) : Result :=
  match romEntry idx with
  | some v => .next (s.complete rd v.toInt false)
  | none => .next (s.takeFault .scaleRange (encode (.scale rd idx)))

end Sys2Proof.Machine
end

