-- ==== Sys2Proof/Machine/Sqrt.lean ====
section
/-! DEFINITION. The square-root commands (43_sqrt.md). `scaledX = raw * scale` and the engine's answer is the new raw value (R174). -/

namespace Sys2Proof.Machine

/-- SQRT.FX32 (R172): SQRT_NEG for a negative operand; OV is never set and IW64 has no effect. -/
def execSqrtFx32 (rd rs1 : RegId) (s : State) : Result :=
  let a := s.opA .fx32 rs1
  if a < 0 then .next (s.takeFault .sqrtNeg (encode (.sqrtFx32 rd rs1)))
  else .next (s.complete rd (s.root 64 (a * Fmt.scale .fx32).toNat) false)

/-- SQRT.FX64 (R173): with IW64 = 0 the pre-scaling is exact and the engine 128 bits wide; with IW64 = 1 both are 64 bits wide,
SQRT_OVF replaces a negative pre-scaled value and OV reports a lossy one. SQRT_NEG is checked first (R208). -/
def execSqrtFx64 (rd rs1 : RegId) (s : State) : Result :=
  let a := s.opA .fx64 rs1
  if a < 0 then .next (s.takeFault .sqrtNeg (encode (.sqrtFx64 rd rs1)))
  else if s.iw then
    let scaledX := wrap 64 (a * Fmt.scale .fx64)
    if scaledX < 0 then .next (s.takeFault .sqrtOvf (encode (.sqrtFx64 rd rs1)))
    else .next (s.complete rd (s.root 64 scaledX.toNat) (overflows 64 (a * Fmt.scale .fx64)))
  else .next (s.complete rd (s.root 128 (a * Fmt.scale .fx64).toNat) false)

end Sys2Proof.Machine
end

