-- ==== Sys2Proof/Machine/Dispatch.lean ====
section
/-! DEFINITION. One arm per command of the opcode map (30_encoding.md R84). -/

namespace Sys2Proof.Machine

def exec (i : Instr) (s : State) : Host.Outcome State Fault Refusal :=
  match i with
  | .addFx32 rd rs1 rs2 => Sys2Proof.Machine.execAddFx32 rd rs1 rs2 s
  | .addFx64 rd rs1 rs2 => Sys2Proof.Machine.execAddFx64 rd rs1 rs2 s
  | .subFx32 rd rs1 rs2 => Sys2Proof.Machine.execSubFx32 rd rs1 rs2 s
  | .subFx64 rd rs1 rs2 => Sys2Proof.Machine.execSubFx64 rd rs1 rs2 s
  | .mulFx32 rd rs1 rs2 => Sys2Proof.Machine.execMulFx32 rd rs1 rs2 s
  | .mulFx64 rd rs1 rs2 => Sys2Proof.Machine.execMulFx64 rd rs1 rs2 s
  | .divFx32 rd rs1 rs2 => Sys2Proof.Machine.execDivFx32 rd rs1 rs2 s
  | .divFx64 rd rs1 rs2 => Sys2Proof.Machine.execDivFx64 rd rs1 rs2 s
  | .macFx32 rd rs1 rs2 => Sys2Proof.Machine.execMacFx32 rd rs1 rs2 s
  | .macFx64 rd rs1 rs2 => Sys2Proof.Machine.execMacFx64 rd rs1 rs2 s
  | .sqrtFx32 rd rs1 => Sys2Proof.Machine.execSqrtFx32 rd rs1 s
  | .sqrtFx64 rd rs1 => Sys2Proof.Machine.execSqrtFx64 rd rs1 s
  | .scale rd idx => Sys2Proof.Machine.execScale rd idx s

end Sys2Proof.Machine
end

