-- ==== Sys2Proof/Machine/Window.lean ====
section
/-! DEFINITION. The host register window (20_memory.md): the map of R51, accepted and rejected accesses (R53, R54), byte order (R55),
and the window's place in the host's address space (R50, R7). -/

namespace Sys2Proof.Machine

/-- `FXU_BASE`, a multiple of 256 (R7; log 3). -/
def fxuBase : Nat := 256 * Config.fxuBasePage

/-- The host address of a window offset (R50). -/
def windowAddress (off : Offset) : Nat := fxuBase + off

/-- The window offset of a host address, if the window holds it (R50: 256 bytes at FXU_BASE). -/
def windowOffset (addr : Nat) : Option Offset :=
  if fxuBase ≤ addr then
    if h : addr - fxuBase < 256 then some ⟨addr - fxuBase, h⟩ else none
  else none

/-- The offset lies in the data registers' part of the window, 0x020..0x05F (R51). -/
def inRegisters (off : Offset) : Bool := decide (0x020 ≤ off.val) && decide (off.val < 0x060)

/-- The register an offset of 0x020..0x05F belongs to: Xi is at 0x020 + 8*i (R51). -/
def registerAt (off : Offset) : RegId := ⟨(off.val - 0x020) / 8 % 8, Nat.mod_lt _ (by decide)⟩

/-- The offset addresses the low half of its register (R51: bits 31:0 at 0x020 + 8*i, bits 63:32 at 0x024 + 8*i). -/
def isLowHalf (off : Offset) : Bool := off.val % 8 == 0

/-- The accesses the FXU accepts (R53): 32-bit at a multiple of 4, 64-bit at a whole data register. -/
def Access.accepted : Access → Bool
  | .r8 _ => false
  | .r16 _ => false
  | .r32 off => off.val % 4 == 0
  | .r64 off => inRegisters off && off.val % 8 == 0
  | .w8 _ _ => false
  | .w16 _ _ => false
  | .w32 off _ => off.val % 4 == 0
  | .w64 off _ => inRegisters off && off.val % 8 == 0

/-- The one access the interlock never holds: a 32-bit read of STATUS (R60). -/
def Access.isStatusRead : Access → Bool
  | .r8 _ => false
  | .r16 _ => false
  | .r32 off => off.val == 0x004
  | .r64 _ => false
  | .w8 _ _ => false
  | .w16 _ _ => false
  | .w32 _ _ => false
  | .w64 _ _ => false

/-- A 32-bit read (R51, R52): CMD and reserved offsets read as 0. No read has a side effect (R58). -/
def State.read32 (off : Offset) (s : State) : Word32 :=
  if off.val = 0x004 then s.statusWord
  else if off.val = 0x008 then s.ctrlWord
  else if off.val = 0x00C then s.errcmd
  else if inRegisters off then
    if isLowHalf off then (s.readX (registerAt off)).extractLsb' 0 32 else (s.readX (registerAt off)).extractLsb' 32 32
  else 0#32

/-- A 32-bit write of one half of a data register: the other half keeps its value (R56). -/
def State.writeHalf (off : Offset) (v : Word32) (s : State) : State :=
  let old := s.readX (registerAt off)
  s.writeX (registerAt off) (if isLowHalf off then old.extractLsb' 32 32 ++ v else v ++ old.extractLsb' 0 32)

/-- A 32-bit write of any register but CMD (R51, R58): ERRCMD and reserved offsets ignore it (R29, R52). -/
def State.write32 (off : Offset) (v : Word32) (s : State) : State :=
  if off.val = 0x004 then s.writeStatus v
  else if off.val = 0x008 then s.writeCtrl v
  else if inRegisters off then s.writeHalf off v
  else s

/-- The byte a window offset shows: byte k of the 32-bit word at offset o is at o + k and holds bits 8k+7:8k (R55). -/
def State.windowByte (off : Offset) (s : State) : BitVec 8 :=
  (s.read32 ⟨off.val / 4 * 4, by omega⟩).extractLsb' (8 * (off.val % 4)) 8

end Sys2Proof.Machine
end

