-- ==== Sys2Proof/Machine/Command.lean ====
section
/-! DEFINITION. Presenting a command word (60_exceptions.md R209), accepting it, its hidden working (10_state.md R32) and its
completion, and performing one host access (20_memory.md R58, R59). -/

namespace Sys2Proof.Machine

/-- The unit a command starts at acceptance: the widened intermediate of MUL, MAC and DIV, the square-root engine of SQRT, or neither
(log 7). A command whose operand check will fail starts no unit. -/
def startWork (i : Instr) (s : State) : Work :=
  match i with
  | .addFx32 _ _ _ => .direct
  | .addFx64 _ _ _ => .direct
  | .subFx32 _ _ _ => .direct
  | .subFx64 _ _ _ => .direct
  | .mulFx32 _ rs1 rs2 => .muldiv (mulWide .fx32 false (s.opA .fx32 rs1) (s.opB .fx32 rs2))
  | .mulFx64 _ rs1 rs2 => .muldiv (mulWide .fx64 s.iw (s.opA .fx64 rs1) (s.opB .fx64 rs2))
  | .divFx32 _ rs1 rs2 => if s.opB .fx32 rs2 = 0 then .direct else .muldiv (divWide .fx32 false (s.opA .fx32 rs1))
  | .divFx64 _ rs1 rs2 => if s.opB .fx64 rs2 = 0 then .direct else .muldiv (divWide .fx64 s.iw (s.opA .fx64 rs1))
  | .macFx32 _ rs1 rs2 => .muldiv (mulWide .fx32 false (s.opA .fx32 rs1) (s.opB .fx32 rs2))
  | .macFx64 _ rs1 rs2 => .muldiv (mulWide .fx64 s.iw (s.opA .fx64 rs1) (s.opB .fx64 rs2))
  | .sqrtFx32 _ rs1 =>
      let a := s.opA .fx32 rs1
      if a < 0 then .direct else .sqrt (engineStart 64 (a * Fmt.scale .fx32).toNat)
  | .sqrtFx64 _ rs1 =>
      let a := s.opA .fx64 rs1
      if a < 0 then .direct
      else if s.iw then
        let scaledX := wrap 64 (a * Fmt.scale .fx64)
        if scaledX < 0 then .direct else .sqrt (engineStart 64 scaledX.toNat)
      else .sqrt (engineStart 128 (a * Fmt.scale .fx64).toNat)
  | .scale _ _ => .direct

/-- The hidden state an accepted command latches (R209: "latch w, its operands and CTRL.IW64"; R32). -/
def latch (w : Word32) (i : Instr) (s : State) : Flight where
  word := w
  op1 := i.src1.map (fun r => s.readX r)
  op2 := i.src2.map (fun r => s.readX r)
  acc := i.srcAcc.map (fun r => s.readX r)
  iw := s.ctrl.iw64
  work := startWork i s

/-- Acceptance (R209): STATUS.BUSY <- 1, and the hidden state is latched. -/
def State.accept (w : Word32) (i : Instr) (s : State) : State := { s with flight := some (latch w i s) }

/-- What a legal word does once it is presented: accepted, to be completed later, or executed at the moment its CMD write completes
(R247; log 4). -/
def legalCommand (atomic : Bool) (w : Word32) (i : Instr) (s : State) : Result :=
  if atomic then exec i s else .next (s.accept w i)

/-- Command presentation (R209): dropped while ERR = 1, else ILLEGAL for an illegal word (R202), else accepted. -/
def present (atomic : Bool) (w : Word32) (s : State) : Result :=
  if s.status.err then .next s.dropCommand
  else
    match decode w with
    | none => .next (s.takeFault .illegal w)
    | some i => legalCommand atomic w i s

/-- Completion of the command in flight (R211, R207): its instruction's meaning. An illegal word is never accepted (R209); the arm
for one makes the definition total (log 18). -/
def finish (f : Flight) (s : State) : Result :=
  match decode f.word with
  | some i => exec i s
  | none => .next (s.takeFault .illegal f.word)

/-- One move of the FXU: one shift of the square-root engine's `bit` while it runs (R170), else the completion (R61: all
architectural effects at one instant). An idle FXU does nothing (R20, R218). -/
def fxuTurn (s : State) : Result :=
  match s.flight with
  | none => .next s
  | some f =>
    match f.work with
    | .sqrt e => if e.bit = 0 then finish f s else .next { s with flight := some { f with work := .sqrt e.advance } }
    | .direct => finish f s
    | .muldiv _ => finish f s

/-- One host access is performed (R58, R59) and answered; a rejected one changes no FXU state (R54). -/
def performAccess (atomic : Bool) (a : Access) (s : State) : Result :=
  match a with
  | .r8 _ => .next s.rejectRead
  | .r16 _ => .next s.rejectRead
  | .r32 off => .next (if a.accepted then s.answer (.data32 (s.read32 off)) else s.rejectRead)
  | .r64 off => .next (if a.accepted then s.answer (.data64 (s.readX (registerAt off))) else s.rejectRead)
  | .w8 _ _ => .next s.rejectWrite
  | .w16 _ _ => .next s.rejectWrite
  | .w32 off v =>
      if a.accepted then
        if off.val = 0x000 then present atomic v (s.answer .written) else .next ((s.answer .written).write32 off v)
      else .next s.rejectWrite
  | .w64 off v => .next (if a.accepted then (s.answer .written).writeX (registerAt off) v else s.rejectWrite)

end Sys2Proof.Machine
end

