-- ==== Sys2Proof/Machine/Turns.lean ====
section
/-! DEFINITION. Who moves in a step, and what each agent's move does (10_state.md R20; 20_memory.md R59, R60; 70_reset_and_hazards.md
R240; log 4). -/

namespace Sys2Proof.Machine

/-- The host presents its next access (R59). While a command is in flight every access but a STATUS read is held (R60). While reset is
asserted no access is accepted: it waits (R240; log 9). With the supply off the behaviour is not given (R218; log 10). -/
def hostTurn (atomic : Bool) (s : State) : Result :=
  match s.accesses with
  | [] => .next s
  | a :: rest =>
    match s.power with
    | .off => .fault .accessWhilePoweredDown
    | .inReset => .next s
    | .running =>
      match s.held with
      | some _ => .next s
      | none =>
        if s.busy && !a.isStatusRead then .next { s with accesses := rest, held := some a }
        else performAccess atomic a { s with accesses := rest }

/-- One agent's move. -/
def takeTurn (atomic : Bool) (t : Turn) (s : State) : Result :=
  match t with
  | .fxu => if s.power = .running then fxuTurn s else .next s
  | .host => hostTurn atomic s
  | .assertReset => .next (s.toReset .inReset)
  | .releaseReset => .next (if s.power = .inReset then s.toReset .running else s)
  | .powerDown => .next s.losePower

/-- Who moves where the schedule says nothing: the FXU while a command is in flight, else the host (R243). -/
def defaultTurn (s : State) : Turn := if s.busy then .fxu else .host

/-- The held access that the interlock has just let go: no command is in flight any more (R60: "it is then performed as if issued at
that moment"; log 11). -/
def releasedAccess (s : State) : Option Access :=
  if s.power = .running && !s.busy then s.held else none

end Sys2Proof.Machine
end

