-- ==== Sys2Proof/Machine/Step.lean ====
section
/-! DEFINITION. One step of the machine, and how a command word is placed so that the next step runs it. -/

namespace Sys2Proof.Machine

/-- One step: an access the interlock has let go is performed first (R60); else the scheduled agent moves; with no schedule left the
machine takes the synchronous reading, in which a command executes at the moment its CMD write completes (R243, R247; log 4). -/
def step (s : State) : Host.Outcome State Fault Refusal :=
  match releasedAccess s with
  | some a => performAccess s.schedule.isEmpty a { s with held := none }
  | none =>
    match s.schedule with
    | t :: ts => takeTurn false t { s with schedule := ts }
    | [] => takeTurn true (defaultTurn s) s

/-- The FXU fetches nothing: a command is a host write of CMD (R25, R80). The word is placed as the host's next access, with the unit
able to accept it (running, idle, ERR = 0) and the synchronous reading chosen (log 6). -/
def State.withFetchWord (s : State) (nbits w : Nat) : State :=
  { s with
    status := { s.status with err := false, cause := .none }
    flight := none
    held := none
    power := .running
    accesses := .w32 0 (tableWord nbits w) :: s.accesses
    schedule := [] }

end Sys2Proof.Machine
end

