-- ==== Sys2Proof/Safety.lean ====
section
/-! DEFINITION. What a sound state of the FXU is: the invariants claims are stated with, and a run of FXU turns. -/

namespace Sys2Proof.Machine

/-- STATUS.CAUSE is 0 exactly while ERR = 0 (R26, R201). -/
def State.CauseMatchesErr (s : State) : Prop := s.status.cause = .none ↔ s.status.err = false

/-- The unit's working values after `k` FXU turns. -/
def Work.after (k : Nat) : Work → Work
  | .direct => .direct
  | .muldiv wide => .muldiv wide
  | .sqrt e => .sqrt (Engine.run k e)

/-- The same state with no command in flight. -/
def State.idle (s : State) : State := { s with flight := none }

/-- The hidden state of R32 is what acceptance latched: a legal word, the operands still in the registers (R60: no access has changed
them), CTRL.IW64, and the unit's working values some FXU turns after their start; and no fault is recorded (R209). -/
def State.FlightLatched (s : State) : Prop :=
  ∀ f, s.flight = some f →
    s.power = .running ∧ s.status.err = false ∧
    ∃ i k, decode f.word = some i ∧
      f = { latch f.word i s.idle with work := (startWork i s.idle).after k }

/-- Only an access that the interlock may hold is held, and only by a running unit (R60, R240). -/
def State.HeldIsHoldable (s : State) : Prop :=
  ∀ a, s.held = some a → a.isStatusRead = false ∧ s.power = .running

/-- While reset is asserted every piece of state holds its value of R34. -/
def State.ResetIsQuiet (s : State) : Prop := s.power = .inReset → s = s.toReset .inReset

/-- The invariants together. -/
def State.Sound (s : State) : Prop :=
  s.CauseMatchesErr ∧ s.FlightLatched ∧ s.HeldIsHoldable ∧ s.ResetIsQuiet

/-- `n` moves of the FXU, the host and the platform doing nothing. -/
def fxuTurns : Nat → State → Result
  | 0, s => .next s
  | n + 1, s =>
    match fxuTurn s with
    | .next t => fxuTurns n t
    | .fault r => .fault r
    | .refused r => .refused r

/-- The next host turn presents an access while the supply is off: the one way a step stops (log 10). -/
def State.StopsNext (s : State) : Prop :=
  s.power = .off ∧ s.accesses ≠ [] ∧ (s.schedule = [] ∧ s.flight = none ∨ ∃ ts, s.schedule = .host :: ts)

end Sys2Proof.Machine
end

