-- ==== Sys2Proof/Certificates/Slice0/Obligations.lean ====
section
/-! DEFINITION. The statements for the provers, in the words of the numbered rules of spec/. The vocabulary of the first section is
the spec's own (00_scope.md R9), written without the model's functions, so that a statement compares the two. -/

namespace Sys2Proof.Claims

open Sys2Proof.Machine

/-! ### The spec's integer functions (R9) -/

/-- `fits_N(v)`: -2^(N-1) <= v <= 2^(N-1) - 1. -/
def InRange (n : Nat) (v : Int) : Prop := -(2 : Int) ^ (n - 1) ≤ v ∧ v ≤ (2 : Int) ^ (n - 1) - 1

/-- `w = wrap_N(v)`: fits_N(w) and w ≡ v (mod 2^N). -/
def IsWrap (n : Nat) (v w : Int) : Prop := InRange n w ∧ (2 : Int) ^ n ∣ v - w

/-- `tdiv(n, d)`: sign(n*d) * floor(|n| / |d|). -/
def towardZero (n d : Int) : Int := (n * d).sign * ((n.natAbs / d.natAbs : Nat) : Int)

/-- `r = isqrt(v)`: the largest r >= 0 with r*r <= v. -/
def IsFloorRoot (v r : Int) : Prop := 0 ≤ r ∧ r * r ≤ v ∧ v < (r + 1) * (r + 1)

/-! ### Operands (R22, R24) -/

/-- `sext_32(x[r][31:0])` (R22). -/
def low32 (s : State) (r : RegId) : Int := (s.x[r].setWidth 32).toInt

/-- `sext_64(x[r])` (R24). -/
def full64 (s : State) (r : RegId) : Int := s.x[r].toInt

/-! ### FXMUL and FXDIV as relations (R143, R150) -/

/-- `(r, ov) = FXMUL(fmt, a, b, iw)` (R143). -/
def IsProduct : Fmt → Bool → Int → Int → Int → Prop → Prop
  | .fx32, _, a, b, r, ov =>
      IsWrap 32 (towardZero (a * b) 1000) r ∧ (ov ↔ ¬ InRange 32 (towardZero (a * b) 1000))
  | .fx64, false, a, b, r, ov =>
      IsWrap 64 (towardZero (a * b) 1000000) r ∧ (ov ↔ ¬ InRange 64 (towardZero (a * b) 1000000))
  | .fx64, true, a, b, r, ov =>
      ∃ p, IsWrap 64 (a * b) p ∧ r = towardZero p 1000000 ∧ (ov ↔ ¬ InRange 64 (a * b))

/-- `(r, ov) = FXDIV(fmt, a, b, iw)` (R150), for b ≠ 0. -/
def IsQuotient : Fmt → Bool → Int → Int → Int → Prop → Prop
  | .fx32, _, a, b, r, ov =>
      IsWrap 32 (towardZero (a * 1000) b) r ∧ (ov ↔ ¬ InRange 32 (towardZero (a * 1000) b))
  | .fx64, false, a, b, r, ov =>
      IsWrap 64 (towardZero (a * 1000000) b) r ∧ (ov ↔ ¬ InRange 64 (towardZero (a * 1000000) b))
  | .fx64, true, a, b, r, ov =>
      ∃ n, IsWrap 64 (a * 1000000) n ∧ IsWrap 64 (towardZero n b) r ∧
        (ov ↔ ¬ InRange 64 (a * 1000000) ∨ ¬ InRange 64 (towardZero n b))

/-! ### How a command ends (R200, R207, R211) -/

/-- Everything outside the FXU's registers is unchanged: the held access, reset and power, the host's coming accesses, the schedule,
the host port's answers and the free values drawn. -/
def SameOutside (s t : State) : Prop :=
  t.held = s.held ∧ t.power = s.power ∧ t.accesses = s.accesses ∧ t.schedule = s.schedule ∧ t.replies = s.replies ∧
    t.draws = s.draws

/-- The command completed with the result `r` in `rd` and the overflow indication `ov`; nothing else changed. -/
def Completed (s t : State) (rd : RegId) (r : Int) (ov : Prop) : Prop :=
  t.x[rd].toInt = r ∧ (∀ q, q ≠ rd → t.x[q] = s.x[q]) ∧
    (t.status.ov = true ↔ s.status.ov = true ∨ ov) ∧ t.status.done = true ∧ t.flight = none ∧
    t.status.err = s.status.err ∧ t.status.cause = s.status.cause ∧ t.status.drop = s.status.drop ∧
    t.ctrl = s.ctrl ∧ t.errcmd = s.errcmd ∧ SameOutside s t

/-- The command faulted with the cause `c`, its word being `w`; nothing else changed. -/
def Faulted (s t : State) (c : Cause) (w : Word32) : Prop :=
  t.status.err = true ∧ t.status.cause = c ∧ t.errcmd = w ∧ t.flight = none ∧
    t.x = s.x ∧ t.status.ov = s.status.ov ∧ t.status.done = s.status.done ∧ t.status.drop = s.status.drop ∧
    t.ctrl = s.ctrl ∧ SameOutside s t

/-- The FXU's own state is unchanged (the host port's answers and the free values drawn may differ). -/
def SameFxu (s t : State) : Prop :=
  t.x = s.x ∧ t.status = s.status ∧ t.ctrl = s.ctrl ∧ t.errcmd = s.errcmd ∧ t.flight = s.flight ∧ t.held = s.held ∧
    t.power = s.power

/-- The unit is running, idle, holds no access and has ERR = 0: a presented command is accepted. -/
def ReadyForCommand (s : State) : Prop :=
  s.power = .running ∧ s.flight = none ∧ s.held = none ∧ s.status.err = false

/-- The commands of format FX32. -/
def IsFx32 : Instr → Prop
  | .addFx32 _ _ _ => True
  | .addFx64 _ _ _ => False
  | .subFx32 _ _ _ => True
  | .subFx64 _ _ _ => False
  | .mulFx32 _ _ _ => True
  | .mulFx64 _ _ _ => False
  | .divFx32 _ _ _ => True
  | .divFx64 _ _ _ => False
  | .macFx32 _ _ _ => True
  | .macFx64 _ _ _ => False
  | .sqrtFx32 _ _ => True
  | .sqrtFx64 _ _ => False
  | .scale _ _ => False

/-- The offset of Xi's low half, 0x020 + 8*i (R51). -/
def lowOffset (r : RegId) : Offset := ⟨0x020 + 8 * r.val, by omega⟩

/-- The offset of Xi's high half, 0x024 + 8*i (R51). -/
def highOffset (r : RegId) : Offset := ⟨0x024 + 8 * r.val, by omega⟩

/-- A reserved offset of the window: 0x010..0x01F or 0x060..0x0FF (R51). -/
def Reserved (off : Offset) : Prop := 0x010 ≤ off.val ∧ off.val ≤ 0x01F ∨ 0x060 ≤ off.val

/-- An offset of the data registers, 0x020..0x05F (R51). -/
def InDataRegisters (off : Offset) : Prop := 0x020 ≤ off.val ∧ off.val < 0x060

/-- Every data register but the one whose eight bytes hold the offset, X((off - 0x020) / 8) (R51), is unchanged. -/
def OtherRegistersSame (off : Offset) (s t : State) : Prop :=
  ∀ q : RegId, q.val ≠ (off.val - 0x020) / 8 → t.x[q] = s.x[q]

/-- A host write of 32 or 64 bits at an offset. -/
def IsWriteAt (a : Access) (off : Offset) : Prop := (∃ v, a = .w32 off v) ∨ ∃ u, a = .w64 off u

end Sys2Proof.Claims

open Sys2Proof Sys2Proof.Machine Sys2Proof.Claims

/-! ### Encoding (30_encoding.md) -/

/-- 95_test_vectors.md section 2: some words, bit by bit from R84, decode to their instructions or to nothing. -/
def Obligations.WrittenWordsDecode : Prop :=
  decode 0b00000000000000000010001011000001#32 = some (.addFx32 3 1 2) ∧
  decode 0b00000000000000000111111111010001#32 = some (.addFx64 7 7 7) ∧
  decode 0b00000000000000000010001000010101#32 = some (.macFx64 0 1 2) ∧
  decode 0b00000000000000000000010011000110#32 = some (.sqrtFx32 3 2) ∧
  decode 0b00000000000011111000000101010111#32 = some (.scale 5 31) ∧
  decode 0x00000000#32 = none ∧ decode 0x000000E1#32 = none ∧ decode 0x00030147#32 = none ∧ decode 0x800022C1#32 = none ∧
  decode 0x0000A2C1#32 = none ∧ decode 0x00001046#32 = none ∧ decode 0x00031157#32 = none

/-- Every well-formed instruction's word decodes to it, with every operand at every value (R84, R85). -/
def Obligations.DecodeOfEncodeIsTheInstruction : Prop :=
  ∀ i : Instr, wellFormed i = true → decode (encode i) = some i

/-- A legal word has one meaning and is that instruction's only word, so ERRCMD's `encode i` is the full faulting word (R29, R85, R86). -/
def Obligations.EncodeOfDecodeIsTheWord : Prop :=
  ∀ (w : Word32) (i : Instr), decode w = some i → wellFormed i = true ∧ encode i = w

/-- R84: the opcode map's rows are exact, with the fields of R81. -/
def Obligations.OpcodeMapIsExact : Prop :=
  ∀ (w : Word32) (i : Instr),
    let rd : RegId := (w.extractLsb' 6 3).toFin
    let rs1 : RegId := (w.extractLsb' 9 3).toFin
    let rs2 : RegId := (w.extractLsb' 12 3).toFin
    decode w = some i ↔
      (w &&& 0xFFFF803F#32 = 0x00000001#32 ∧ i = .addFx32 rd rs1 rs2) ∨
      (w &&& 0xFFFF803F#32 = 0x00000011#32 ∧ i = .addFx64 rd rs1 rs2) ∨
      (w &&& 0xFFFF803F#32 = 0x00000002#32 ∧ i = .subFx32 rd rs1 rs2) ∨
      (w &&& 0xFFFF803F#32 = 0x00000012#32 ∧ i = .subFx64 rd rs1 rs2) ∨
      (w &&& 0xFFFF803F#32 = 0x00000003#32 ∧ i = .mulFx32 rd rs1 rs2) ∨
      (w &&& 0xFFFF803F#32 = 0x00000013#32 ∧ i = .mulFx64 rd rs1 rs2) ∨
      (w &&& 0xFFFF803F#32 = 0x00000004#32 ∧ i = .divFx32 rd rs1 rs2) ∨
      (w &&& 0xFFFF803F#32 = 0x00000014#32 ∧ i = .divFx64 rd rs1 rs2) ∨
      (w &&& 0xFFFF803F#32 = 0x00000005#32 ∧ i = .macFx32 rd rs1 rs2) ∨
      (w &&& 0xFFFF803F#32 = 0x00000015#32 ∧ i = .macFx64 rd rs1 rs2) ∨
      (w &&& 0xFFFFF03F#32 = 0x00000006#32 ∧ i = .sqrtFx32 rd rs1) ∨
      (w &&& 0xFFFFF03F#32 = 0x00000016#32 ∧ i = .sqrtFx64 rd rs1) ∨
      (w &&& 0xFFF07E3F#32 = 0x00000017#32 ∧ i = .scale rd (w.extractLsb' 15 5).toNat)

/-- R86: legality, the illegal words one by one, ILLEGAL without reading or writing a data register, and SCALE's index no part of it. -/
def Obligations.IllegalWordsAreExactlyThese : Prop :=
  ∀ w : Word32,
    let op := (w.extractLsb' 0 4).toNat
    let fmt := (w.extractLsb' 4 2).toNat
    let rs1 := (w.extractLsb' 9 3).toNat
    let rs2 := (w.extractLsb' 12 3).toNat
    let imm5 := (w.extractLsb' 15 5).toNat
    let res := (w.extractLsb' 20 12).toNat
    (opcodeRows.filter (fun r => w &&& r.mask == r.pattern)).length ≤ 1 ∧
    (decode w ≠ none ↔ ∃ r ∈ opcodeRows, w &&& r.mask = r.pattern) ∧
    (decode w = none ↔
      op = 0 ∨ 8 ≤ op ∨ 2 ≤ fmt ∨ (op = 7 ∧ fmt = 0) ∨ res ≠ 0 ∨ (op ≠ 7 ∧ imm5 ≠ 0) ∨
        ((op = 6 ∨ op = 7) ∧ rs2 ≠ 0) ∨ (op = 7 ∧ rs1 ≠ 0)) ∧
    (∀ (s : State) (atomic : Bool), s.status.err = false → decode w = none →
      ∃ t, performAccess atomic (.w32 0 w) s = .next t ∧ Faulted (s.answer .written) t .illegal w) ∧
    (∀ (rd : RegId) (idx : Nat), 19 ≤ idx → idx ≤ 31 → w = encode (.scale rd idx) → decode w = some (.scale rd idx))

/-! ### Addition and subtraction (41_add_sub.md) -/

/-- R121. -/
def Obligations.AddFx32WritesWrappedSum : Prop :=
  ∀ (s : State) (rd rs1 rs2 : RegId), s.flight = none →
    encode (.addFx32 rd rs1 rs2) &&& 0xFFFF803F#32 = 0x00000001#32 ∧
    ∃ t r, exec (.addFx32 rd rs1 rs2) s = .next t ∧ IsWrap 32 (low32 s rs1 + low32 s rs2) r ∧
      Completed s t rd r (¬ InRange 32 (low32 s rs1 + low32 s rs2))

/-- R122. -/
def Obligations.AddFx64WritesWrappedSum : Prop :=
  ∀ (s : State) (rd rs1 rs2 : RegId), s.flight = none →
    encode (.addFx64 rd rs1 rs2) &&& 0xFFFF803F#32 = 0x00000011#32 ∧
    ∃ t r, exec (.addFx64 rd rs1 rs2) s = .next t ∧ IsWrap 64 (full64 s rs1 + full64 s rs2) r ∧
      Completed s t rd r (¬ InRange 64 (full64 s rs1 + full64 s rs2))

/-- R123. -/
def Obligations.SubFx32WritesWrappedDifference : Prop :=
  ∀ (s : State) (rd rs1 rs2 : RegId), s.flight = none →
    encode (.subFx32 rd rs1 rs2) &&& 0xFFFF803F#32 = 0x00000002#32 ∧
    ∃ t r, exec (.subFx32 rd rs1 rs2) s = .next t ∧ IsWrap 32 (low32 s rs1 - low32 s rs2) r ∧
      Completed s t rd r (¬ InRange 32 (low32 s rs1 - low32 s rs2))

/-- R124. -/
def Obligations.SubFx64WritesWrappedDifference : Prop :=
  ∀ (s : State) (rd rs1 rs2 : RegId), s.flight = none →
    encode (.subFx64 rd rs1 rs2) &&& 0xFFFF803F#32 = 0x00000012#32 ∧
    ∃ t r, exec (.subFx64 rd rs1 rs2) s = .next t ∧ IsWrap 64 (full64 s rs1 - full64 s rs2) r ∧
      Completed s t rd r (¬ InRange 64 (full64 s rs1 - full64 s rs2))

/-! ### Multiplication, division, multiply-accumulate (42_mul_div_mac.md) -/

/-- R144 with R143. -/
def Obligations.MulFx32WritesProduct : Prop :=
  ∀ (s : State) (rd rs1 rs2 : RegId), s.flight = none →
    encode (.mulFx32 rd rs1 rs2) &&& 0xFFFF803F#32 = 0x00000003#32 ∧
    ∃ t r ov, exec (.mulFx32 rd rs1 rs2) s = .next t ∧ IsProduct .fx32 false (low32 s rs1) (low32 s rs2) r ov ∧
      Completed s t rd r ov

/-- R145 with R143. -/
def Obligations.MulFx64WritesProduct : Prop :=
  ∀ (s : State) (rd rs1 rs2 : RegId), s.flight = none →
    encode (.mulFx64 rd rs1 rs2) &&& 0xFFFF803F#32 = 0x00000013#32 ∧
    ∃ t r ov, exec (.mulFx64 rd rs1 rs2) s = .next t ∧
      IsProduct .fx64 s.ctrl.iw64 (full64 s rs1) (full64 s rs2) r ov ∧ Completed s t rd r ov

/-- R146 with R150. -/
def Obligations.DivFx32WritesQuotientOrFaultsOnZero : Prop :=
  ∀ (s : State) (rd rs1 rs2 : RegId), s.flight = none →
    encode (.divFx32 rd rs1 rs2) &&& 0xFFFF803F#32 = 0x00000004#32 ∧
    (low32 s rs2 ≠ 0 → ∃ t r ov, exec (.divFx32 rd rs1 rs2) s = .next t ∧
      IsQuotient .fx32 false (low32 s rs1) (low32 s rs2) r ov ∧ Completed s t rd r ov) ∧
    (low32 s rs2 = 0 → ∃ t, exec (.divFx32 rd rs1 rs2) s = .next t ∧ Faulted s t .divz (encode (.divFx32 rd rs1 rs2)))

/-- R147 with R150. -/
def Obligations.DivFx64WritesQuotientOrFaultsOnZero : Prop :=
  ∀ (s : State) (rd rs1 rs2 : RegId), s.flight = none →
    encode (.divFx64 rd rs1 rs2) &&& 0xFFFF803F#32 = 0x00000014#32 ∧
    (full64 s rs2 ≠ 0 → ∃ t r ov, exec (.divFx64 rd rs1 rs2) s = .next t ∧
      IsQuotient .fx64 s.ctrl.iw64 (full64 s rs1) (full64 s rs2) r ov ∧ Completed s t rd r ov) ∧
    (full64 s rs2 = 0 → ∃ t, exec (.divFx64 rd rs1 rs2) s = .next t ∧ Faulted s t .divz (encode (.divFx64 rd rs1 rs2)))

/-- R148 with R143. -/
def Obligations.MacFx32AddsNarrowedProduct : Prop :=
  ∀ (s : State) (rd rs1 rs2 : RegId), s.flight = none →
    encode (.macFx32 rd rs1 rs2) &&& 0xFFFF803F#32 = 0x00000005#32 ∧
    ∃ t m ov1 r, exec (.macFx32 rd rs1 rs2) s = .next t ∧ IsProduct .fx32 false (low32 s rs1) (low32 s rs2) m ov1 ∧
      IsWrap 32 (low32 s rd + m) r ∧ Completed s t rd r (ov1 ∨ ¬ InRange 32 (low32 s rd + m))

/-- R149 with R143. -/
def Obligations.MacFx64AddsNarrowedProduct : Prop :=
  ∀ (s : State) (rd rs1 rs2 : RegId), s.flight = none →
    encode (.macFx64 rd rs1 rs2) &&& 0xFFFF803F#32 = 0x00000015#32 ∧
    ∃ t m ov1 r, exec (.macFx64 rd rs1 rs2) s = .next t ∧
      IsProduct .fx64 s.ctrl.iw64 (full64 s rs1) (full64 s rs2) m ov1 ∧
      IsWrap 64 (full64 s rd + m) r ∧ Completed s t rd r (ov1 ∨ ¬ InRange 64 (full64 s rd + m))

/-! ### Square root (43_sqrt.md) -/

/-- R172. -/
def Obligations.SqrtFx32WritesFloorRootOrFaults : Prop :=
  ∀ (s : State) (rd rs1 : RegId), s.flight = none →
    encode (.sqrtFx32 rd rs1) &&& 0xFFFFF03F#32 = 0x00000006#32 ∧
    (0 ≤ low32 s rs1 → ∃ t r, exec (.sqrtFx32 rd rs1) s = .next t ∧ IsFloorRoot (low32 s rs1 * 1000) r ∧ r ≤ 1465429 ∧
      Completed s t rd r False) ∧
    (low32 s rs1 < 0 → ∃ t, exec (.sqrtFx32 rd rs1) s = .next t ∧ Faulted s t .sqrtNeg (encode (.sqrtFx32 rd rs1)))

/-- R173. -/
def Obligations.SqrtFx64WritesFloorRootOrFaults : Prop :=
  ∀ (s : State) (rd rs1 : RegId), s.flight = none →
    encode (.sqrtFx64 rd rs1) &&& 0xFFFFF03F#32 = 0x00000016#32 ∧
    (full64 s rs1 < 0 →
      ∃ t, exec (.sqrtFx64 rd rs1) s = .next t ∧ Faulted s t .sqrtNeg (encode (.sqrtFx64 rd rs1))) ∧
    (0 ≤ full64 s rs1 → s.ctrl.iw64 = false →
      ∃ t r, exec (.sqrtFx64 rd rs1) s = .next t ∧ IsFloorRoot (full64 s rs1 * 1000000) r ∧ r ≤ 3037000499976 ∧
        Completed s t rd r False) ∧
    (0 ≤ full64 s rs1 → s.ctrl.iw64 = true → ∀ scaledX, IsWrap 64 (full64 s rs1 * 1000000) scaledX →
      (scaledX < 0 →
        ∃ t, exec (.sqrtFx64 rd rs1) s = .next t ∧ Faulted s t .sqrtOvf (encode (.sqrtFx64 rd rs1))) ∧
      (0 ≤ scaledX →
        ∃ t r, exec (.sqrtFx64 rd rs1) s = .next t ∧ IsFloorRoot scaledX r ∧
          Completed s t rd r (¬ InRange 64 (full64 s rs1 * 1000000))))

/-- R171 item 1: the digit-by-digit engine computes the floor square root at both widths. -/
def Obligations.EngineComputesFloorRoot : Prop :=
  ∀ w v : Nat, w = 64 ∨ w = 128 → v < 2 ^ (w - 1) → IsFloorRoot v (isqrtEngine w v)

/-- R171 item 2: `bit` takes the values 2^(W-2), 2^(W-4), ..., 4, 1, 0, in exactly W/2 shifts. -/
def Obligations.EngineMakesExactlyHalfWidthShifts : Prop :=
  ∀ w v : Nat, w = 64 ∨ w = 128 →
    (∀ k, k < w / 2 → (Engine.run k (engineStart w v)).bit = 2 ^ (w - 2 - 2 * k)) ∧
    (∀ k, w / 2 ≤ k → (Engine.run k (engineStart w v)).bit = 0)

/-- R171 item 3: no working value leaves 0 .. 2^(W-1) - 1. -/
def Obligations.EngineValuesStayInWidth : Prop :=
  ∀ w v k : Nat, w = 64 ∨ w = 128 → v < 2 ^ (w - 1) →
    let e := Engine.run k (engineStart w v)
    e.rem < 2 ^ (w - 1) ∧ e.ans < 2 ^ (w - 1) ∧ e.ans + e.bit < 2 ^ (w - 1)

/-! ### Scale table (40_scale_table.md) -/

/-- R100: 19 entries, entry i the integer 10^i, nothing beyond. -/
def Obligations.ScaleRomHoldsPowersOfTen : Prop :=
  ∀ i : Nat,
    (i ≤ 18 → ∃ v, romEntry i = some v ∧ v.toInt = 10 ^ i) ∧ (18 < i → romEntry i = none)

/-- R103, for every index the five bits of the word hold (R83, R89). -/
def Obligations.ScaleWritesPowerOfTenOrFaults : Prop :=
  ∀ (s : State) (rd : RegId) (idx : Nat), idx ≤ 31 →
    encode (.scale rd idx) &&& 0xFFF07E3F#32 = 0x00000017#32 ∧
    (idx ≤ 18 → ∃ t, exec (.scale rd idx) s = .next t ∧ Completed s t rd (10 ^ idx) False) ∧
    (18 < idx → ∃ t, exec (.scale rd idx) s = .next t ∧ Faulted s t .scaleRange (encode (.scale rd idx)))

/-! ### Integer functions (00_scope.md R9) -/

/-- The model's `wrap`, `fits` and `tdiv` are the functions R9 defines. -/
def Obligations.IntegerFunctionsMeetTheirDefinitions : Prop :=
  ∀ (n : Nat) (v : Int), 0 < n →
    (∀ w, IsWrap n v w ↔ w = wrap n v) ∧ (fits n v = true ↔ InRange n v) ∧ (∀ d, d ≠ 0 → tdiv v d = towardZero v d)

/-! ### Commands as a whole -/

/-- R200: every command completes or faults, in every state, and changes nothing else (the frame of all 13 commands). -/
def Obligations.EveryCommandCompletesOrFaults : Prop :=
  ∀ (i : Instr) (s : State), ∃ t, exec i s = .next t ∧
    ((∃ r ov, Completed s t i.dest r ov) ∨ ∃ c, c ≠ .none ∧ Faulted s t c (encode i))

/-- The frame in bytes of the host window: a command changes no byte but those of STATUS, of its destination register where it
completes, and of ERRCMD where it faults (R21, R200, R207). -/
def Obligations.CommandsChangeNoOtherWindowByte : Prop :=
  ∀ (i : Instr) (s t : State) (off : Offset), exec i s = .next t → ¬ (0x004 ≤ off.val ∧ off.val < 0x008) →
    (¬ (0x00C ≤ off.val ∧ off.val < 0x010) →
      ¬ (0x020 + 8 * i.dest.val ≤ off.val ∧ off.val < 0x028 + 8 * i.dest.val) → t.windowByte off = s.windowByte off) ∧
    (s.status.err = false → t.status.err = true →
      ¬ (0x00C ≤ off.val ∧ off.val < 0x010) → t.windowByte off = s.windowByte off) ∧
    (t.status.err = false →
      ¬ (0x020 + 8 * i.dest.val ≤ off.val ∧ off.val < 0x028 + 8 * i.dest.val) → t.windowByte off = s.windowByte off)

/-- R201, R203 to R206, R208: which operand condition raises which cause, and no other, for every instruction that has a word. -/
def Obligations.FaultCausesAreRaisedExactlyWhen : Prop :=
  ∀ (i : Instr) (s t : State), wellFormed i = true → s.flight = none → s.status.err = false → s.status.cause = .none → exec i s = .next t →
    (t.status.err = false ↔ t.status.cause = .none) ∧ t.status.cause ≠ .illegal ∧
    (t.status.cause = .divz ↔
      ∃ rd rs1 rs2, (i = .divFx32 rd rs1 rs2 ∧ low32 s rs2 = 0) ∨ (i = .divFx64 rd rs1 rs2 ∧ full64 s rs2 = 0)) ∧
    (t.status.cause = .sqrtNeg ↔
      ∃ rd rs1, (i = .sqrtFx32 rd rs1 ∧ low32 s rs1 < 0) ∨ (i = .sqrtFx64 rd rs1 ∧ full64 s rs1 < 0)) ∧
    (t.status.cause = .scaleRange ↔ ∃ rd idx, i = .scale rd idx ∧ 18 < idx) ∧
    (t.status.cause = .sqrtOvf ↔
      ∃ rd rs1 p, i = .sqrtFx64 rd rs1 ∧ s.ctrl.iw64 = true ∧ 0 ≤ full64 s rs1 ∧
        IsWrap 64 (full64 s rs1 * 1000000) p ∧ p < 0)

/-- R22 and R28: an FX32 command depends on bits 31:0 of the registers only, and not on CTRL. -/
def Obligations.Fx32IgnoresUpperHalvesAndCtrl : Prop :=
  ∀ (i : Instr) (s s' t t' : State), IsFx32 i → s.flight = none → s'.flight = none →
    (∀ r : RegId, s'.x[r].setWidth 32 = s.x[r].setWidth 32) → s'.status = s.status → s'.errcmd = s.errcmd →
    exec i s = .next t → exec i s' = .next t' →
    t'.status = t.status ∧ t'.errcmd = t.errcmd ∧ (∀ r : RegId, t'.x[r].setWidth 32 = t.x[r].setWidth 32) ∧
    (s.status.err = false → t.status.err = false → t'.x[i.dest] = t.x[i.dest])

/-- R140, 90_conflicts.md C1: with IW64 = 1, a command that completes without setting OV gives the same result as with IW64 = 0. -/
def Obligations.NarrowModeAgreesUnlessOverflow : Prop :=
  ∀ (i : Instr) (s t : State), s.flight = none → s.status.err = false → s.status.ov = false → s.ctrl.iw64 = true →
    exec i s = .next t → t.status.err = false → t.status.ov = false →
    ∃ t', exec i { s with ctrl := { s.ctrl with iw64 := false } } = .next t' ∧ t'.x = t.x ∧ t'.status = t.status

/-- R148: MAC is exactly a MUL followed by an ADD into `rd`, in both formats. -/
def Obligations.MacIsMulThenAdd : Prop :=
  ∀ (s : State) (rd rs1 rs2 tmp : RegId), s.flight = none → tmp ≠ rd →
    (∃ t m u, exec (.macFx32 rd rs1 rs2) s = .next t ∧ exec (.mulFx32 tmp rs1 rs2) s = .next m ∧
      exec (.addFx32 rd rd tmp) m = .next u ∧ t.x[rd] = u.x[rd] ∧ t.status = u.status) ∧
    (∃ t m u, exec (.macFx64 rd rs1 rs2) s = .next t ∧ exec (.mulFx64 tmp rs1 rs2) s = .next m ∧
      exec (.addFx64 rd rd tmp) m = .next u ∧ t.x[rd] = u.x[rd] ∧ t.status = u.status)

/-- 95_test_vectors.md section 3: SUB after ADD of the same operand gives the first operand back, even when the ADD wrapped. -/
def Obligations.SubUndoesAdd : Prop :=
  ∀ (s : State) (rd rd' rs1 rs2 : RegId), s.flight = none → rd ≠ rs2 →
    (∃ t u, exec (.addFx32 rd rs1 rs2) s = .next t ∧ exec (.subFx32 rd' rd rs2) t = .next u ∧
      u.x[rd'].toInt = low32 s rs1) ∧
    (∃ t u, exec (.addFx64 rd rs1 rs2) s = .next t ∧ exec (.subFx64 rd' rd rs2) t = .next u ∧ u.x[rd'] = s.x[rs1])

/-! ### Presenting and completing a command (60_exceptions.md R209, 20_memory.md R59 to R61) -/

/-- R209: a word written to CMD is dropped while ERR = 1, faults if illegal, else is accepted with its operands and IW64 latched. -/
def Obligations.CmdWriteDropsFaultsOrAccepts : Prop :=
  ∀ (s : State) (w : Word32),
    (s.status.err = true → ∀ atomic, performAccess atomic (.w32 0 w) s =
      .next { s with status := { s.status with drop := true }, replies := .written :: s.replies }) ∧
    (s.status.err = false → decode w = none → ∀ atomic, ∃ t,
      performAccess atomic (.w32 0 w) s = .next t ∧ Faulted (s.answer .written) t .illegal w) ∧
    (∀ i, s.status.err = false → decode w = some i → ∃ f,
      performAccess false (.w32 0 w) s = .next { s with flight := some f, replies := .written :: s.replies } ∧
      f.word = w ∧ f.op1 = i.src1.map (fun r => s.x[r]) ∧ f.op2 = i.src2.map (fun r => s.x[r]) ∧
      f.acc = i.srcAcc.map (fun r => s.x[r]) ∧ f.iw = s.ctrl.iw64)

/-- A step runs the decoded instruction: at the CMD write in the synchronous reading (R247), at the completion of the command in
flight otherwise (R61), and at once for a word placed by `withFetchWord` (log 6). -/
def Obligations.StepRunsTheDecodedInstruction : Prop :=
  (∀ (s : State) (w : Word32) (i : Instr) (rest : List Access), ReadyForCommand s → s.schedule = [] →
    s.accesses = .w32 0 w :: rest → decode w = some i →
    step s = exec i { s with accesses := rest, replies := .written :: s.replies }) ∧
  (∀ (s : State) (f : Flight) (i : Instr) (ts : List Turn), s.power = .running → s.flight = some f →
    decode f.word = some i → (∀ e, f.work = .sqrt e → e.bit = 0) →
    (s.schedule = .fxu :: ts → step s = exec i { s with schedule := ts }) ∧ (s.schedule = [] → step s = exec i s)) ∧
  (∀ (s : State) (w : Word32) (i : Instr), decode w = some i →
    step (s.withFetchWord 32 w.toNat) =
      exec i { s with
        status := { s.status with err := false, cause := .none }
        flight := none, held := none, power := .running, schedule := [], replies := .written :: s.replies })

/-- R247, R61, R32: a command accepted at its CMD write and then worked on by the FXU, turn by turn (the square-root engine shift by
shift), leaves exactly the state that executing it at the moment of its CMD write leaves. -/
def Obligations.HiddenWorkingAgreesWithAtomicExecution : Prop :=
  ∀ (s : State) (w : Word32) (i : Instr) (rest : List Access), ReadyForCommand s → s.accesses = .w32 0 w :: rest →
    decode w = some i →
    ∃ n, 1 ≤ n ∧ n ≤ 65 ∧ ∀ ts : List Turn,
      Sys2Proof.core.run (n + 1) { s with schedule := .host :: (List.replicate n .fxu ++ ts) } =
        exec i { s with accesses := rest, schedule := ts, replies := .written :: s.replies }

/-- R246: a command in flight ends within 65 moves of the FXU (one for each of the engine's at most 64 shifts, and its completion),
whatever its operands. The number of moves is the model's (log 5). -/
def Obligations.EveryCommandInFlightEnds : Prop :=
  ∀ s : State, s.FlightLatched → s.busy = true →
    ∃ n t, 1 ≤ n ∧ n ≤ 65 ∧ fxuTurns n s = .next t ∧ t.busy = false

/-- R60: while a command is in flight every access but a STATUS read is held with no effect; it is performed as soon as the command
has ended. Two clauses are the model's reading: that any later access, a STATUS read too, waits behind a held one is log 12 (DEDUCED
from R59, unsafe if a host port reorders), and that the held access is performed before any scheduled turn is log 11 (DEDUCED). -/
def Obligations.InterlockHoldsAccesses : Prop :=
  (∀ (s : State) (a : Access) (rest : List Access) (ts : List Turn), s.power = .running → s.busy = true → s.held = none →
    s.schedule = .host :: ts → s.accesses = a :: rest → a ≠ .r32 0x004 →
    step s = .next { s with schedule := ts, accesses := rest, held := some a }) ∧
  (∀ (s : State) (a b : Access) (rest : List Access) (ts : List Turn), s.power = .running → s.busy = true → s.held = some a →
    s.schedule = .host :: ts → s.accesses = b :: rest → step s = .next { s with schedule := ts }) ∧
  (∀ (s : State) (a : Access), s.power = .running → s.busy = false → s.held = some a →
    step s = performAccess s.schedule.isEmpty a { s with held := none })

/-- R60, R61, R244: a STATUS read while a command is in flight is performed at once; it shows BUSY = 1 and the other fields as they
are, and changes nothing. -/
def Obligations.StatusReadWhileBusyShowsBusy : Prop :=
  ∀ (s : State) (rest : List Access) (ts : List Turn), s.power = .running → s.busy = true → s.held = none →
    s.schedule = .host :: ts → s.accesses = .r32 0x004 :: rest →
    ∃ v : Word32, step s = .next { s with schedule := ts, accesses := rest, replies := .data32 v :: s.replies } ∧
      v.getLsbD 0 = true ∧ v.getLsbD 1 = s.status.done ∧ v.getLsbD 2 = s.status.err ∧ v.getLsbD 3 = s.status.ov ∧
      v.getLsbD 4 = s.status.drop ∧ v.extractLsb' 8 4 = s.status.cause.code

/-- R61, R60, R28: all effects of a command take effect at one instant: a step after which the command is still in flight changes no
register. That reset and the supply are unchanged too rests on R240 (a reset abandons the command in flight; that it does so at its
assertion is log 9, DEDUCED) and on log 10 (DESIGN CHOICE: a power-down ends it, which R218 leaves to the platform). -/
def Obligations.NoEffectBeforeCompletion : Prop :=
  ∀ s t : State, step s = .next t → s.busy = true → t.busy = true →
    t.x = s.x ∧ t.status = s.status ∧ t.ctrl = s.ctrl ∧ t.errcmd = s.errcmd ∧ t.power = s.power

/-- R209, R210: while ERR = 1 no command runs. Nothing is put in flight, DONE and OV are not newly set, and a data register changes only
by reset or by a host write that addresses it; the only record is of the first fault: ERRCMD and CAUSE stay until ERR is cleared or the
unit is reset. That a power-down step keeps the registers is the model's (log 10), and that reset is a step at its assertion and another
at its release is log 9. -/
def Obligations.NoCommandRunsAfterAFault : Prop :=
  ∀ s t : State, s.status.err = true → s.flight = none → step s = .next t →
    t.flight = none ∧ (t.errcmd = s.errcmd ∨ t = t.toReset t.power) ∧
    ((t.status.err = true ∧ t.status.cause = s.status.cause) ∨ (t.status.err = false ∧ t.status.cause = .none)) ∧
    (t.status.done = true → s.status.done = true) ∧ (t.status.ov = true → s.status.ov = true) ∧
    (t.x = s.x ∨ t = t.toReset t.power ∨
      ∃ (a : Access) (off : Offset), (s.held = some a ∨ s.accesses.head? = some a) ∧ IsWriteAt a off ∧
        InDataRegisters off ∧ OtherRegistersSame off s t)

/-! ### The host window (20_memory.md, 10_state.md section 4) -/

/-- R26 and R28: what a read of STATUS and of CTRL shows, bit by bit. -/
def Obligations.StatusAndCtrlReadLayout : Prop :=
  ∀ s : State,
    (let v := s.read32 0x004
     v.getLsbD 0 = s.busy ∧ v.getLsbD 1 = s.status.done ∧ v.getLsbD 2 = s.status.err ∧ v.getLsbD 3 = s.status.ov ∧
     v.getLsbD 4 = s.status.drop ∧ v.extractLsb' 5 3 = 0#3 ∧ v.extractLsb' 12 20 = 0#20 ∧
     (s.status.cause = .none ↔ v.extractLsb' 8 4 = 0#4) ∧ (s.status.cause = .illegal ↔ v.extractLsb' 8 4 = 1#4) ∧
     (s.status.cause = .divz ↔ v.extractLsb' 8 4 = 2#4) ∧ (s.status.cause = .sqrtNeg ↔ v.extractLsb' 8 4 = 3#4) ∧
     (s.status.cause = .scaleRange ↔ v.extractLsb' 8 4 = 4#4) ∧ (s.status.cause = .sqrtOvf ↔ v.extractLsb' 8 4 = 5#4)) ∧
    (let v := s.read32 0x008
     v.getLsbD 0 = s.ctrl.iw64 ∧ v.getLsbD 1 = s.ctrl.doneie ∧ v.getLsbD 2 = s.ctrl.errie ∧ v.extractLsb' 3 29 = 0#29)

/-- R27 (and R210: bit 2 returns from a fault). -/
def Obligations.StatusWriteClearsExactlyTheOnes : Prop :=
  ∀ (s : State) (v : Word32) (atomic : Bool), ∃ st : Status,
    performAccess atomic (.w32 0x004 v) s = .next { s with status := st, replies := .written :: s.replies } ∧
    st.done = (if v.getLsbD 1 = true then false else s.status.done) ∧
    st.err = (if v.getLsbD 2 = true then false else s.status.err) ∧
    st.ov = (if v.getLsbD 3 = true then false else s.status.ov) ∧
    st.drop = (if v.getLsbD 4 = true then false else s.status.drop) ∧
    st.cause = (if v.getLsbD 2 = true then .none else s.status.cause)

/-- R28: a CTRL write sets the three defined bits, ignores the rest, and changes nothing else. -/
def Obligations.CtrlWriteSetsDefinedBits : Prop :=
  ∀ (s : State) (v : Word32) (atomic : Bool), ∃ c : Ctrl,
    performAccess atomic (.w32 0x008 v) s = .next { s with ctrl := c, replies := .written :: s.replies } ∧
    State.read32 0x008 { s with ctrl := c, replies := .written :: s.replies } = v &&& 7#32

/-- R55 and R56: the halves and the bytes of a data register in the window, little-endian; a 32-bit write changes one half only. -/
def Obligations.RegisterHalvesAndBytes : Prop :=
  ∀ (s : State) (r : RegId) (v : Word32) (u : Word64) (atomic : Bool),
    (∃ t, performAccess atomic (.w32 (lowOffset r) v) s = .next t ∧ t.x[r].extractLsb' 0 32 = v ∧
      t.x[r].extractLsb' 32 32 = s.x[r].extractLsb' 32 32 ∧ (∀ q, q ≠ r → t.x[q] = s.x[q])) ∧
    (∃ t, performAccess atomic (.w32 (highOffset r) v) s = .next t ∧ t.x[r].extractLsb' 32 32 = v ∧
      t.x[r].extractLsb' 0 32 = s.x[r].extractLsb' 0 32 ∧ (∀ q, q ≠ r → t.x[q] = s.x[q])) ∧
    (∃ t, performAccess atomic (.w64 (lowOffset r) u) s = .next t ∧ t.x[r] = u ∧ (∀ q, q ≠ r → t.x[q] = s.x[q])) ∧
    (performAccess atomic (.r32 (lowOffset r)) s = .next (s.answer (.data32 (s.x[r].extractLsb' 0 32)))) ∧
    (performAccess atomic (.r32 (highOffset r)) s = .next (s.answer (.data32 (s.x[r].extractLsb' 32 32)))) ∧
    (performAccess atomic (.r64 (lowOffset r)) s = .next (s.answer (.data64 s.x[r]))) ∧
    (∀ off : Offset, (lowOffset r).val ≤ off.val → off.val < (lowOffset r).val + 8 →
      s.windowByte off = s.x[r].extractLsb' (8 * (off.val - (lowOffset r).val)) 8) ∧
    (∀ off o : Offset, o.val % 4 = 0 → o.val ≤ off.val → off.val < o.val + 4 →
      s.windowByte off = (s.read32 o).extractLsb' (8 * (off.val - o.val)) 8)

/-- R58, R29, R30, R54: no read has a side effect, and a write changes nothing but the register it addresses (a write of CMD presents a
command: CmdWriteDropsFaultsOrAccepts). -/
def Obligations.AccessesHaveNoOtherEffect : Prop :=
  ∀ (s t : State) (atomic : Bool) (off : Offset) (b : BitVec 8) (h : BitVec 16) (v : Word32) (u : Word64),
    (∀ a, a = .r8 off ∨ a = .r16 off ∨ a = .r32 off ∨ a = .r64 off → performAccess atomic a s = .next t → SameFxu s t) ∧
    (performAccess atomic (.w32 off v) s = .next t →
      (off.val = 0x00C ∨ Reserved off ∨ off.val % 4 ≠ 0 → SameFxu s t) ∧
      (off.val = 0x004 → SameFxu s { t with status := s.status }) ∧
      (off.val = 0x008 → SameFxu s { t with ctrl := s.ctrl }) ∧
      (InDataRegisters off → SameFxu s { t with x := s.x } ∧ OtherRegistersSame off s t)) ∧
    (performAccess atomic (.w64 off u) s = .next t →
      (InDataRegisters off → SameFxu s { t with x := s.x } ∧ OtherRegistersSame off s t) ∧
      (¬ InDataRegisters off ∨ off.val % 8 ≠ 0 → SameFxu s t)) ∧
    (performAccess atomic (.w8 off b) s = .next t ∨ performAccess atomic (.w16 off h) s = .next t → SameFxu s t) ∧
    (performAccess atomic (.r32 0x000) s = .next (s.answer (.data32 0#32))) ∧
    (performAccess atomic (.r32 0x00C) s = .next (s.answer (.data32 s.errcmd)))

/-- R52: reserved offsets read as 0 and ignore writes; neither is an error. -/
def Obligations.ReservedOffsetsReadZeroIgnoreWrites : Prop :=
  ∀ (s : State) (off : Offset) (v : Word32) (atomic : Bool), Reserved off → off.val % 4 = 0 →
    performAccess atomic (.r32 off) s = .next { s with replies := .data32 0#32 :: s.replies } ∧
    performAccess atomic (.w32 off v) s = .next { s with replies := .written :: s.replies }

/-- R53 and R54: which accesses are accepted; a rejected one changes no FXU state and issues no command. -/
def Obligations.RejectedAccessesChangeNothing : Prop :=
  ∀ a : Access,
    (a.accepted = true ↔
      (∃ off, off.val % 4 = 0 ∧ (a = .r32 off ∨ ∃ v, a = .w32 off v)) ∨
      (∃ r, a = .r64 (lowOffset r) ∨ ∃ v, a = .w64 (lowOffset r) v)) ∧
    (a.accepted = false → ∀ (s : State) (atomic : Bool), ∃ t rep, performAccess atomic a s = .next t ∧ SameFxu s t ∧
      t.accesses = s.accesses ∧ t.schedule = s.schedule ∧ t.replies = rep :: s.replies ∧
      ((∃ d n, rep = .rejectedRead d n) ∨ ∃ n, rep = .rejectedWrite n))

/-- R50 and R7: the window is the 256 bytes at FXU_BASE, a multiple of 256, and no other host address reaches the FXU. -/
def Obligations.WindowIsAt256BytesFromBase : Prop :=
  fxuBase % 256 = 0 ∧ ∀ (addr : Nat) (off : Offset), windowOffset addr = some off ↔ addr = fxuBase + off.val

/-- R212: the interrupt line, and how it is deasserted. -/
def Obligations.InterruptLineFollowsStatusAndEnables : Prop :=
  ∀ (s t : State) (atomic : Bool) (v : Word32),
    (s.irq = true ↔ (s.status.done = true ∧ s.ctrl.doneie = true) ∨ (s.status.err = true ∧ s.ctrl.errie = true)) ∧
    (t.status.done = s.status.done → t.status.err = s.status.err → t.ctrl.doneie = s.ctrl.doneie →
      t.ctrl.errie = s.ctrl.errie → t.irq = s.irq) ∧
    (performAccess atomic (.w32 0x004 v) s = .next t → v.getLsbD 1 = true → v.getLsbD 2 = true → t.irq = false) ∧
    (performAccess atomic (.w32 0x008 v) s = .next t → v.getLsbD 1 = false → v.getLsbD 2 = false → t.irq = false) ∧
    (∀ i, exec i s = .next t → s.status.err = false →
      (t.status.err = false → s.ctrl.doneie = true → t.irq = true) ∧
      (t.status.err = true → s.ctrl.errie = true → t.irq = true))

/-! ### Reset and invariants (70_reset_and_hazards.md, 10_state.md R34) -/

/-- R240 and R34: reset, from every state, a command in flight and a held access abandoned. That the platform's turns are two steps is
the model's (log 9). -/
def Obligations.ResetGivesEveryRegisterItsValue : Prop :=
  (∀ (s : State) (ts : List Turn), (s.held = none ∨ s.busy = true) → s.schedule = .assertReset :: .releaseReset :: ts →
    ∃ t, Sys2Proof.core.run 2 s = .next t ∧ (∀ r : RegId, t.x[r] = 0#64) ∧ t.statusWord = 0#32 ∧ t.ctrlWord = 0#32 ∧
      t.errcmd = 0#32 ∧ t.flight = none ∧ t.held = none ∧ t.irq = false ∧ t.power = .running ∧ t.accesses = s.accesses) ∧
  (∀ r : RegId, State.reset.x[r] = 0#64) ∧ State.reset.statusWord = 0#32 ∧ State.reset.ctrlWord = 0#32 ∧
  State.reset.errcmd = 0#32 ∧ State.reset.flight = none ∧ State.reset.irq = false

/-- While reset is asserted no access is accepted: whatever moves, but for the platform, leaves every register (R240). That an access
presented meanwhile waits is the model's (log 9). -/
def Obligations.NothingHappensDuringReset : Prop :=
  ∀ s t : State, s.power = .inReset → step s = .next t → (∀ ts, s.schedule ≠ .releaseReset :: ts) →
    (∀ ts, s.schedule ≠ .powerDown :: ts) → (∀ ts, s.schedule ≠ .assertReset :: ts) →
    SameFxu s t ∧ t.accesses = s.accesses ∧ t.replies = s.replies

/-- The invariants hold after reset. -/
def Obligations.ResetStateIsSound : Prop := State.reset.Sound

/-- R26, R201: STATUS.CAUSE is 0 exactly while ERR = 0, and every step keeps it so. That a power-down step keeps STATUS is the model's
(log 10). -/
def Obligations.StepKeepsCauseMatchesErr : Prop :=
  ∀ s t : State, s.CauseMatchesErr → step s = .next t → t.CauseMatchesErr

/-- R32, R60, R209: every step keeps the hidden state what acceptance latched: a legal word, operands and IW64 that the registers still
hold, and working values that are some FXU turns after their start; a command is in flight only while ERR = 0. FXU turns are the model's (log 5), and
so is that a power-down ends the command in flight (log 10). -/
def Obligations.StepKeepsFlightLatched : Prop :=
  ∀ s t : State, s.FlightLatched → step s = .next t → t.FlightLatched

/-- R60: every step keeps a held access one that may be held. And every step keeps the registers at their values of R34 while reset is
asserted: that is the model's (log 9, DEDUCED), since R240 gives those values for the moment reset is released. That a power-down
abandons a held access and ends an asserted reset is the model's too (log 10). -/
def Obligations.StepKeepsHeldAndResetState : Prop :=
  ∀ s t : State, s.HeldIsHoldable → s.ResetIsQuiet → step s = .next t → t.HeldIsHoldable ∧ t.ResetIsQuiet

/-- A step never refuses, and stops in exactly one way: a host access presented while the supply is off (the model's, log 10). -/
def Obligations.StepStopsOnlyWithoutPower : Prop :=
  ∀ s : State, (∀ r, step s ≠ .refused r) ∧ ∀ r, step s = .fault r ↔ s.StopsNext
end

