-- ==== Sys2Proof/Laws/Coding.lean ====
section
/-! SUPPORT. The command word as a number: what the encoder's fields add up to and what the opcode map's masks test. -/

namespace Sys2Proof

/-- The command word as a sum of its fields (R81, R85). -/
theorem encodeFields_toNat {imm5 rs2 rs1 rd low : Nat} (h2 : rs2 < 8) (h1 : rs1 < 8) (hd : rd < 8) (hl : low < 64) :
    (encodeFields imm5 rs2 rs1 rd low).toNat = imm5 % 32 * 32768 + rs2 * 4096 + rs1 * 512 + rd * 64 + low := by
  have e1 : rd <<< 6 ||| low = rd * 64 + low := by
    rw [← Nat.shiftLeft_add_eq_or_of_lt (by simpa using hl), Nat.shiftLeft_eq]
  have e2 : rs1 <<< 9 ||| (rd * 64 + low) = rs1 * 512 + (rd * 64 + low) := by
    rw [← Nat.shiftLeft_add_eq_or_of_lt (by omega), Nat.shiftLeft_eq]
  have e3 : rs2 <<< 12 ||| (rs1 * 512 + (rd * 64 + low)) = rs2 * 4096 + (rs1 * 512 + (rd * 64 + low)) := by
    rw [← Nat.shiftLeft_add_eq_or_of_lt (by omega), Nat.shiftLeft_eq]
  have e4 : (imm5 % 32) <<< 15 ||| (rs2 * 4096 + (rs1 * 512 + (rd * 64 + low))) =
      imm5 % 32 * 32768 + (rs2 * 4096 + (rs1 * 512 + (rd * 64 + low))) := by
    rw [← Nat.shiftLeft_add_eq_or_of_lt (by omega), Nat.shiftLeft_eq]
  rw [encodeFields, Nat.or_assoc, Nat.or_assoc, Nat.or_assoc, e1, e2, e3, e4, BitVec.toNat_ofNat]
  omega

/-- Masking off the low `k` bits of a 32-bit number. -/
theorem and_high (x k : Nat) (h : x < 2 ^ 32) (hk : k ≤ 32) : x &&& (2 ^ 32 - 2 ^ k) = x / 2 ^ k * 2 ^ k := by
  apply Nat.eq_of_testBit_eq
  intro i
  have : 2 ^ 32 - 2 ^ k = (2 ^ (32 - k) - 1) * 2 ^ k := by
    rw [Nat.sub_mul, ← Nat.pow_add]; congr 1; congr 1; omega; omega
  rw [this, Nat.testBit_and, Nat.testBit_mul_two_pow, Nat.testBit_mul_two_pow, Nat.testBit_two_pow_sub_one, Nat.testBit_div_two_pow]
  by_cases hki : k ≤ i
  · rw [show i - k + k = i by omega]
    by_cases hi : i < 32
    · simp [hki]; intro _; omega
    · have : x.testBit i = false := Nat.testBit_lt_two_pow (Nat.lt_of_lt_of_le h (Nat.pow_le_pow_right (by decide) (by omega)))
      simp [this]
  · simp [hki]

/-- A three-register row's mask selects the low six bits and refuses every bit above bit 14. -/
theorem and_regMask (w p : Word32) (hp : p.toNat < 64) :
    (w &&& 0xFFFF803F#32) = p ↔ w.toNat % 64 = p.toNat ∧ w.toNat / 32768 = 0 := by
  have hw := w.isLt
  have key : (w &&& 0xFFFF803F#32).toNat = w.toNat / 32768 * 32768 + w.toNat % 64 := by
    have : (0xFFFF803F#32).toNat = (2 ^ 32 - 2 ^ 15) ||| (2 ^ 6 - 1) := by decide
    rw [BitVec.toNat_and, this, Nat.and_or_distrib_left, and_high _ _ hw (by decide), Nat.and_two_pow_sub_one_eq_mod]
    rw [show w.toNat / 2 ^ 15 * 2 ^ 15 = (w.toNat / 2 ^ 15) <<< 15 by rw [Nat.shiftLeft_eq],
      ← Nat.shiftLeft_add_eq_or_of_lt (by omega), Nat.shiftLeft_eq]
    simp only [Nat.reducePow]
  rw [← BitVec.toNat_inj, key]
  omega

/-- The square-root rows' mask also refuses the `rs2` field. -/
theorem and_sqrtMask (w p : Word32) (hp : p.toNat < 64) :
    (w &&& 0xFFFFF03F#32) = p ↔ w.toNat % 64 = p.toNat ∧ w.toNat / 4096 = 0 := by
  have hw := w.isLt
  have key : (w &&& 0xFFFFF03F#32).toNat = w.toNat / 4096 * 4096 + w.toNat % 64 := by
    have : (0xFFFFF03F#32).toNat = (2 ^ 32 - 2 ^ 12) ||| (2 ^ 6 - 1) := by decide
    rw [BitVec.toNat_and, this, Nat.and_or_distrib_left, and_high _ _ hw (by decide), Nat.and_two_pow_sub_one_eq_mod]
    rw [show w.toNat / 2 ^ 12 * 2 ^ 12 = (w.toNat / 2 ^ 12) <<< 12 by rw [Nat.shiftLeft_eq],
      ← Nat.shiftLeft_add_eq_or_of_lt (by omega), Nat.shiftLeft_eq]
    simp only [Nat.reducePow]
  rw [← BitVec.toNat_inj, key]
  omega

/-- SCALE's mask refuses the `rs1` and `rs2` fields and the reserved bits, not `imm5`. -/
theorem and_scaleMask (w p : Word32) (hp : p.toNat < 64) :
    (w &&& 0xFFF07E3F#32) = p ↔ w.toNat % 64 = p.toNat ∧ w.toNat / 512 % 64 = 0 ∧ w.toNat / 1048576 = 0 := by
  have hw := w.isLt
  have key : (w &&& 0xFFF07E3F#32).toNat = w.toNat / 1048576 * 1048576 + (w.toNat / 512 % 64 * 512 + w.toNat % 64) := by
    have : (0xFFF07E3F#32).toNat = (2 ^ 32 - 2 ^ 20) ||| ((2 ^ 32 - 2 ^ 9) &&& (2 ^ 15 - 1) ||| (2 ^ 6 - 1)) := by decide
    rw [BitVec.toNat_and, this, Nat.and_or_distrib_left, Nat.and_or_distrib_left, ← Nat.and_assoc, and_high _ _ hw (by decide),
      and_high _ _ hw (by decide), Nat.and_two_pow_sub_one_eq_mod, Nat.and_two_pow_sub_one_eq_mod]
    have e : w.toNat / 2 ^ 9 * 2 ^ 9 % 2 ^ 15 = (w.toNat / 2 ^ 9 % 64) <<< 9 := by rw [Nat.shiftLeft_eq]; omega
    rw [e, ← Nat.shiftLeft_add_eq_or_of_lt (by omega), Nat.shiftLeft_eq,
      show w.toNat / 2 ^ 20 * 2 ^ 20 = (w.toNat / 2 ^ 20) <<< 20 by rw [Nat.shiftLeft_eq],
      ← Nat.shiftLeft_add_eq_or_of_lt (by omega), Nat.shiftLeft_eq]
    simp only [Nat.reducePow]
  rw [← BitVec.toNat_inj, key]
  omega

/-- A three-register form's word is in its row. -/
theorem regForm_row (rd rs1 rs2 : RegId) {low : Nat} (h : low < 64) :
    encodeFields 0 rs2 rs1 rd low &&& 0xFFFF803F#32 = BitVec.ofNat 32 low := by
  have e : (BitVec.ofNat 32 low).toNat = low := by rw [BitVec.toNat_ofNat]; omega
  rw [and_regMask _ _ (by omega), encodeFields_toNat rs2.isLt rs1.isLt rd.isLt h, e]
  omega

/-- A square-root form's word is in its row. -/
theorem sqrtForm_row (rd rs1 : RegId) {low : Nat} (h : low < 64) :
    encodeFields 0 0 rs1 rd low &&& 0xFFFFF03F#32 = BitVec.ofNat 32 low := by
  have e : (BitVec.ofNat 32 low).toNat = low := by rw [BitVec.toNat_ofNat]; omega
  rw [and_sqrtMask _ _ (by omega), encodeFields_toNat (by decide) rs1.isLt rd.isLt h, e]
  omega

/-- SCALE's word is in its row. -/
theorem scaleForm_row (rd : RegId) (idx : Nat) {low : Nat} (h : low < 64) :
    encodeFields idx 0 0 rd low &&& 0xFFF07E3F#32 = BitVec.ofNat 32 low := by
  have e : (BitVec.ofNat 32 low).toNat = low := by rw [BitVec.toNat_ofNat]; omega
  rw [and_scaleMask _ _ (by omega), encodeFields_toNat (by decide) (by decide) rd.isLt h, e]
  omega

end Sys2Proof
end

