-- ==== Sys2Proof/Laws/State.lean ====
section
/-! SUPPORT. One lemma per field per named update, so that no later proof unfolds a record update. -/

namespace Sys2Proof.Machine

/-! ### `State.writeX` -/

@[simp] theorem State.writeX_x (s : State) (r : RegId) (v : Word64) : (s.writeX r v).x = s.x.set r v := rfl
@[simp] theorem State.writeX_status (s : State) (r : RegId) (v : Word64) : (s.writeX r v).status = s.status := rfl
@[simp] theorem State.writeX_ctrl (s : State) (r : RegId) (v : Word64) : (s.writeX r v).ctrl = s.ctrl := rfl
@[simp] theorem State.writeX_errcmd (s : State) (r : RegId) (v : Word64) : (s.writeX r v).errcmd = s.errcmd := rfl
@[simp] theorem State.writeX_flight (s : State) (r : RegId) (v : Word64) : (s.writeX r v).flight = s.flight := rfl
@[simp] theorem State.writeX_held (s : State) (r : RegId) (v : Word64) : (s.writeX r v).held = s.held := rfl
@[simp] theorem State.writeX_power (s : State) (r : RegId) (v : Word64) : (s.writeX r v).power = s.power := rfl
@[simp] theorem State.writeX_accesses (s : State) (r : RegId) (v : Word64) : (s.writeX r v).accesses = s.accesses := rfl
@[simp] theorem State.writeX_schedule (s : State) (r : RegId) (v : Word64) : (s.writeX r v).schedule = s.schedule := rfl
@[simp] theorem State.writeX_replies (s : State) (r : RegId) (v : Word64) : (s.writeX r v).replies = s.replies := rfl
@[simp] theorem State.writeX_draws (s : State) (r : RegId) (v : Word64) : (s.writeX r v).draws = s.draws := rfl

/-! ### `State.complete` -/

@[simp] theorem State.complete_x (s : State) (rd : RegId) (r : Int) (ov : Bool) : (s.complete rd r ov).x = s.x.set rd (BitVec.ofInt 64 r) := rfl
@[simp] theorem State.complete_status (s : State) (rd : RegId) (r : Int) (ov : Bool) : (s.complete rd r ov).status = { s.status with done := true, ov := s.status.ov || ov } := rfl
@[simp] theorem State.complete_ctrl (s : State) (rd : RegId) (r : Int) (ov : Bool) : (s.complete rd r ov).ctrl = s.ctrl := rfl
@[simp] theorem State.complete_errcmd (s : State) (rd : RegId) (r : Int) (ov : Bool) : (s.complete rd r ov).errcmd = s.errcmd := rfl
@[simp] theorem State.complete_flight (s : State) (rd : RegId) (r : Int) (ov : Bool) : (s.complete rd r ov).flight = none := rfl
@[simp] theorem State.complete_held (s : State) (rd : RegId) (r : Int) (ov : Bool) : (s.complete rd r ov).held = s.held := rfl
@[simp] theorem State.complete_power (s : State) (rd : RegId) (r : Int) (ov : Bool) : (s.complete rd r ov).power = s.power := rfl
@[simp] theorem State.complete_accesses (s : State) (rd : RegId) (r : Int) (ov : Bool) : (s.complete rd r ov).accesses = s.accesses := rfl
@[simp] theorem State.complete_schedule (s : State) (rd : RegId) (r : Int) (ov : Bool) : (s.complete rd r ov).schedule = s.schedule := rfl
@[simp] theorem State.complete_replies (s : State) (rd : RegId) (r : Int) (ov : Bool) : (s.complete rd r ov).replies = s.replies := rfl
@[simp] theorem State.complete_draws (s : State) (rd : RegId) (r : Int) (ov : Bool) : (s.complete rd r ov).draws = s.draws := rfl

/-! ### `State.takeFault` -/

@[simp] theorem State.takeFault_x (s : State) (c : Cause) (w : Word32) : (s.takeFault c w).x = s.x := rfl
@[simp] theorem State.takeFault_status (s : State) (c : Cause) (w : Word32) : (s.takeFault c w).status = { s.status with err := true, cause := c } := rfl
@[simp] theorem State.takeFault_ctrl (s : State) (c : Cause) (w : Word32) : (s.takeFault c w).ctrl = s.ctrl := rfl
@[simp] theorem State.takeFault_errcmd (s : State) (c : Cause) (w : Word32) : (s.takeFault c w).errcmd = w := rfl
@[simp] theorem State.takeFault_flight (s : State) (c : Cause) (w : Word32) : (s.takeFault c w).flight = none := rfl
@[simp] theorem State.takeFault_held (s : State) (c : Cause) (w : Word32) : (s.takeFault c w).held = s.held := rfl
@[simp] theorem State.takeFault_power (s : State) (c : Cause) (w : Word32) : (s.takeFault c w).power = s.power := rfl
@[simp] theorem State.takeFault_accesses (s : State) (c : Cause) (w : Word32) : (s.takeFault c w).accesses = s.accesses := rfl
@[simp] theorem State.takeFault_schedule (s : State) (c : Cause) (w : Word32) : (s.takeFault c w).schedule = s.schedule := rfl
@[simp] theorem State.takeFault_replies (s : State) (c : Cause) (w : Word32) : (s.takeFault c w).replies = s.replies := rfl
@[simp] theorem State.takeFault_draws (s : State) (c : Cause) (w : Word32) : (s.takeFault c w).draws = s.draws := rfl

/-! ### `State.returnFromFault` -/

@[simp] theorem State.returnFromFault_x (s : State) : (s.returnFromFault).x = s.x := rfl
@[simp] theorem State.returnFromFault_status (s : State) : (s.returnFromFault).status = { s.status with err := false, cause := .none } := rfl
@[simp] theorem State.returnFromFault_ctrl (s : State) : (s.returnFromFault).ctrl = s.ctrl := rfl
@[simp] theorem State.returnFromFault_errcmd (s : State) : (s.returnFromFault).errcmd = s.errcmd := rfl
@[simp] theorem State.returnFromFault_flight (s : State) : (s.returnFromFault).flight = s.flight := rfl
@[simp] theorem State.returnFromFault_held (s : State) : (s.returnFromFault).held = s.held := rfl
@[simp] theorem State.returnFromFault_power (s : State) : (s.returnFromFault).power = s.power := rfl
@[simp] theorem State.returnFromFault_accesses (s : State) : (s.returnFromFault).accesses = s.accesses := rfl
@[simp] theorem State.returnFromFault_schedule (s : State) : (s.returnFromFault).schedule = s.schedule := rfl
@[simp] theorem State.returnFromFault_replies (s : State) : (s.returnFromFault).replies = s.replies := rfl
@[simp] theorem State.returnFromFault_draws (s : State) : (s.returnFromFault).draws = s.draws := rfl

/-! ### `State.dropCommand` -/

@[simp] theorem State.dropCommand_x (s : State) : (s.dropCommand).x = s.x := rfl
@[simp] theorem State.dropCommand_status (s : State) : (s.dropCommand).status = { s.status with drop := true } := rfl
@[simp] theorem State.dropCommand_ctrl (s : State) : (s.dropCommand).ctrl = s.ctrl := rfl
@[simp] theorem State.dropCommand_errcmd (s : State) : (s.dropCommand).errcmd = s.errcmd := rfl
@[simp] theorem State.dropCommand_flight (s : State) : (s.dropCommand).flight = s.flight := rfl
@[simp] theorem State.dropCommand_held (s : State) : (s.dropCommand).held = s.held := rfl
@[simp] theorem State.dropCommand_power (s : State) : (s.dropCommand).power = s.power := rfl
@[simp] theorem State.dropCommand_accesses (s : State) : (s.dropCommand).accesses = s.accesses := rfl
@[simp] theorem State.dropCommand_schedule (s : State) : (s.dropCommand).schedule = s.schedule := rfl
@[simp] theorem State.dropCommand_replies (s : State) : (s.dropCommand).replies = s.replies := rfl
@[simp] theorem State.dropCommand_draws (s : State) : (s.dropCommand).draws = s.draws := rfl

/-! ### `State.writeCtrl` -/

@[simp] theorem State.writeCtrl_x (s : State) (v : Word32) : (s.writeCtrl v).x = s.x := rfl
@[simp] theorem State.writeCtrl_status (s : State) (v : Word32) : (s.writeCtrl v).status = s.status := rfl
@[simp] theorem State.writeCtrl_ctrl (s : State) (v : Word32) : (s.writeCtrl v).ctrl = ⟨v.getLsbD 0, v.getLsbD 1, v.getLsbD 2⟩ := rfl
@[simp] theorem State.writeCtrl_errcmd (s : State) (v : Word32) : (s.writeCtrl v).errcmd = s.errcmd := rfl
@[simp] theorem State.writeCtrl_flight (s : State) (v : Word32) : (s.writeCtrl v).flight = s.flight := rfl
@[simp] theorem State.writeCtrl_held (s : State) (v : Word32) : (s.writeCtrl v).held = s.held := rfl
@[simp] theorem State.writeCtrl_power (s : State) (v : Word32) : (s.writeCtrl v).power = s.power := rfl
@[simp] theorem State.writeCtrl_accesses (s : State) (v : Word32) : (s.writeCtrl v).accesses = s.accesses := rfl
@[simp] theorem State.writeCtrl_schedule (s : State) (v : Word32) : (s.writeCtrl v).schedule = s.schedule := rfl
@[simp] theorem State.writeCtrl_replies (s : State) (v : Word32) : (s.writeCtrl v).replies = s.replies := rfl
@[simp] theorem State.writeCtrl_draws (s : State) (v : Word32) : (s.writeCtrl v).draws = s.draws := rfl

/-! ### `State.answer` -/

@[simp] theorem State.answer_x (s : State) (r : Reply) : (s.answer r).x = s.x := rfl
@[simp] theorem State.answer_status (s : State) (r : Reply) : (s.answer r).status = s.status := rfl
@[simp] theorem State.answer_ctrl (s : State) (r : Reply) : (s.answer r).ctrl = s.ctrl := rfl
@[simp] theorem State.answer_errcmd (s : State) (r : Reply) : (s.answer r).errcmd = s.errcmd := rfl
@[simp] theorem State.answer_flight (s : State) (r : Reply) : (s.answer r).flight = s.flight := rfl
@[simp] theorem State.answer_held (s : State) (r : Reply) : (s.answer r).held = s.held := rfl
@[simp] theorem State.answer_power (s : State) (r : Reply) : (s.answer r).power = s.power := rfl
@[simp] theorem State.answer_accesses (s : State) (r : Reply) : (s.answer r).accesses = s.accesses := rfl
@[simp] theorem State.answer_schedule (s : State) (r : Reply) : (s.answer r).schedule = s.schedule := rfl
@[simp] theorem State.answer_replies (s : State) (r : Reply) : (s.answer r).replies = r :: s.replies := rfl
@[simp] theorem State.answer_draws (s : State) (r : Reply) : (s.answer r).draws = s.draws := rfl

/-! ### `State.rejectRead` -/

@[simp] theorem State.rejectRead_x (s : State) : (s.rejectRead).x = s.x := rfl
@[simp] theorem State.rejectRead_status (s : State) : (s.rejectRead).status = s.status := rfl
@[simp] theorem State.rejectRead_ctrl (s : State) : (s.rejectRead).ctrl = s.ctrl := rfl
@[simp] theorem State.rejectRead_errcmd (s : State) : (s.rejectRead).errcmd = s.errcmd := rfl
@[simp] theorem State.rejectRead_flight (s : State) : (s.rejectRead).flight = s.flight := rfl
@[simp] theorem State.rejectRead_held (s : State) : (s.rejectRead).held = s.held := rfl
@[simp] theorem State.rejectRead_power (s : State) : (s.rejectRead).power = s.power := rfl
@[simp] theorem State.rejectRead_accesses (s : State) : (s.rejectRead).accesses = s.accesses := rfl
@[simp] theorem State.rejectRead_schedule (s : State) : (s.rejectRead).schedule = s.schedule := rfl
@[simp] theorem State.rejectRead_replies (s : State) : (s.rejectRead).replies = .rejectedRead (Config.rejectedReadData s.draws) (Config.busErrorResponse s.draws) :: s.replies := rfl
@[simp] theorem State.rejectRead_draws (s : State) : (s.rejectRead).draws = s.draws + 1 := rfl

/-! ### `State.rejectWrite` -/

@[simp] theorem State.rejectWrite_x (s : State) : (s.rejectWrite).x = s.x := rfl
@[simp] theorem State.rejectWrite_status (s : State) : (s.rejectWrite).status = s.status := rfl
@[simp] theorem State.rejectWrite_ctrl (s : State) : (s.rejectWrite).ctrl = s.ctrl := rfl
@[simp] theorem State.rejectWrite_errcmd (s : State) : (s.rejectWrite).errcmd = s.errcmd := rfl
@[simp] theorem State.rejectWrite_flight (s : State) : (s.rejectWrite).flight = s.flight := rfl
@[simp] theorem State.rejectWrite_held (s : State) : (s.rejectWrite).held = s.held := rfl
@[simp] theorem State.rejectWrite_power (s : State) : (s.rejectWrite).power = s.power := rfl
@[simp] theorem State.rejectWrite_accesses (s : State) : (s.rejectWrite).accesses = s.accesses := rfl
@[simp] theorem State.rejectWrite_schedule (s : State) : (s.rejectWrite).schedule = s.schedule := rfl
@[simp] theorem State.rejectWrite_replies (s : State) : (s.rejectWrite).replies = .rejectedWrite (Config.busErrorResponse s.draws) :: s.replies := rfl
@[simp] theorem State.rejectWrite_draws (s : State) : (s.rejectWrite).draws = s.draws + 1 := rfl

/-! ### `State.losePower` -/

@[simp] theorem State.losePower_x (s : State) : (s.losePower).x = s.x := rfl
@[simp] theorem State.losePower_status (s : State) : (s.losePower).status = s.status := rfl
@[simp] theorem State.losePower_ctrl (s : State) : (s.losePower).ctrl = s.ctrl := rfl
@[simp] theorem State.losePower_errcmd (s : State) : (s.losePower).errcmd = s.errcmd := rfl
@[simp] theorem State.losePower_flight (s : State) : (s.losePower).flight = none := rfl
@[simp] theorem State.losePower_held (s : State) : (s.losePower).held = none := rfl
@[simp] theorem State.losePower_power (s : State) : (s.losePower).power = .off := rfl
@[simp] theorem State.losePower_accesses (s : State) : (s.losePower).accesses = s.accesses := rfl
@[simp] theorem State.losePower_schedule (s : State) : (s.losePower).schedule = s.schedule := rfl
@[simp] theorem State.losePower_replies (s : State) : (s.losePower).replies = s.replies := rfl
@[simp] theorem State.losePower_draws (s : State) : (s.losePower).draws = s.draws := rfl

/-! ### `State.accept` -/

@[simp] theorem State.accept_x (s : State) (w : Word32) (i : Instr) : (s.accept w i).x = s.x := rfl
@[simp] theorem State.accept_status (s : State) (w : Word32) (i : Instr) : (s.accept w i).status = s.status := rfl
@[simp] theorem State.accept_ctrl (s : State) (w : Word32) (i : Instr) : (s.accept w i).ctrl = s.ctrl := rfl
@[simp] theorem State.accept_errcmd (s : State) (w : Word32) (i : Instr) : (s.accept w i).errcmd = s.errcmd := rfl
@[simp] theorem State.accept_flight (s : State) (w : Word32) (i : Instr) : (s.accept w i).flight = some (latch w i s) := rfl
@[simp] theorem State.accept_held (s : State) (w : Word32) (i : Instr) : (s.accept w i).held = s.held := rfl
@[simp] theorem State.accept_power (s : State) (w : Word32) (i : Instr) : (s.accept w i).power = s.power := rfl
@[simp] theorem State.accept_accesses (s : State) (w : Word32) (i : Instr) : (s.accept w i).accesses = s.accesses := rfl
@[simp] theorem State.accept_schedule (s : State) (w : Word32) (i : Instr) : (s.accept w i).schedule = s.schedule := rfl
@[simp] theorem State.accept_replies (s : State) (w : Word32) (i : Instr) : (s.accept w i).replies = s.replies := rfl
@[simp] theorem State.accept_draws (s : State) (w : Word32) (i : Instr) : (s.accept w i).draws = s.draws := rfl

/-! ### `State.toReset` -/

@[simp] theorem State.toReset_x (s : State) (p : Power) : (s.toReset p).x = Vector.replicate 8 0#64 := rfl
@[simp] theorem State.toReset_status (s : State) (p : Power) : (s.toReset p).status = .reset := rfl
@[simp] theorem State.toReset_ctrl (s : State) (p : Power) : (s.toReset p).ctrl = .reset := rfl
@[simp] theorem State.toReset_errcmd (s : State) (p : Power) : (s.toReset p).errcmd = 0#32 := rfl
@[simp] theorem State.toReset_flight (s : State) (p : Power) : (s.toReset p).flight = none := rfl
@[simp] theorem State.toReset_held (s : State) (p : Power) : (s.toReset p).held = none := rfl
@[simp] theorem State.toReset_power (s : State) (p : Power) : (s.toReset p).power = p := rfl
@[simp] theorem State.toReset_accesses (s : State) (p : Power) : (s.toReset p).accesses = s.accesses := rfl
@[simp] theorem State.toReset_schedule (s : State) (p : Power) : (s.toReset p).schedule = s.schedule := rfl
@[simp] theorem State.toReset_replies (s : State) (p : Power) : (s.toReset p).replies = s.replies := rfl
@[simp] theorem State.toReset_draws (s : State) (p : Power) : (s.toReset p).draws = s.draws := rfl

/-! ### `State.idle` -/

@[simp] theorem State.idle_x (s : State) : (s.idle).x = s.x := rfl
@[simp] theorem State.idle_status (s : State) : (s.idle).status = s.status := rfl
@[simp] theorem State.idle_ctrl (s : State) : (s.idle).ctrl = s.ctrl := rfl
@[simp] theorem State.idle_errcmd (s : State) : (s.idle).errcmd = s.errcmd := rfl
@[simp] theorem State.idle_flight (s : State) : (s.idle).flight = none := rfl
@[simp] theorem State.idle_held (s : State) : (s.idle).held = s.held := rfl
@[simp] theorem State.idle_power (s : State) : (s.idle).power = s.power := rfl
@[simp] theorem State.idle_accesses (s : State) : (s.idle).accesses = s.accesses := rfl
@[simp] theorem State.idle_schedule (s : State) : (s.idle).schedule = s.schedule := rfl
@[simp] theorem State.idle_replies (s : State) : (s.idle).replies = s.replies := rfl
@[simp] theorem State.idle_draws (s : State) : (s.idle).draws = s.draws := rfl

/-! ### `State.writeStatus` -/

@[simp] theorem State.writeStatus_x (s : State) (v : Word32) : (s.writeStatus v).x = s.x := by
  unfold State.writeStatus; split <;> rfl
@[simp] theorem State.writeStatus_ctrl (s : State) (v : Word32) : (s.writeStatus v).ctrl = s.ctrl := by
  unfold State.writeStatus; split <;> rfl
@[simp] theorem State.writeStatus_errcmd (s : State) (v : Word32) : (s.writeStatus v).errcmd = s.errcmd := by
  unfold State.writeStatus; split <;> rfl
@[simp] theorem State.writeStatus_flight (s : State) (v : Word32) : (s.writeStatus v).flight = s.flight := by
  unfold State.writeStatus; split <;> rfl
@[simp] theorem State.writeStatus_held (s : State) (v : Word32) : (s.writeStatus v).held = s.held := by
  unfold State.writeStatus; split <;> rfl
@[simp] theorem State.writeStatus_power (s : State) (v : Word32) : (s.writeStatus v).power = s.power := by
  unfold State.writeStatus; split <;> rfl
@[simp] theorem State.writeStatus_accesses (s : State) (v : Word32) : (s.writeStatus v).accesses = s.accesses := by
  unfold State.writeStatus; split <;> rfl
@[simp] theorem State.writeStatus_schedule (s : State) (v : Word32) : (s.writeStatus v).schedule = s.schedule := by
  unfold State.writeStatus; split <;> rfl
@[simp] theorem State.writeStatus_replies (s : State) (v : Word32) : (s.writeStatus v).replies = s.replies := by
  unfold State.writeStatus; split <;> rfl
@[simp] theorem State.writeStatus_draws (s : State) (v : Word32) : (s.writeStatus v).draws = s.draws := by
  unfold State.writeStatus; split <;> rfl

/-- A STATUS write, field by field (R27). -/
@[simp] theorem State.writeStatus_status (s : State) (v : Word32) :
    (s.writeStatus v).status =
      { done := s.status.done && !v.getLsbD 1
        err := s.status.err && !v.getLsbD 2
        ov := s.status.ov && !v.getLsbD 3
        drop := s.status.drop && !v.getLsbD 4
        cause := if v.getLsbD 2 then .none else s.status.cause } := by
  unfold State.writeStatus
  cases h : v.getLsbD 2 <;> simp

/-! ### `State.writeHalf` and `State.readX` -/

@[simp] theorem State.readX_eq (s : State) (r : RegId) : s.readX r = s.x[r] := rfl

@[simp] theorem State.writeHalf_status (s : State) (off : Offset) (v : Word32) : (s.writeHalf off v).status = s.status := rfl
@[simp] theorem State.writeHalf_ctrl (s : State) (off : Offset) (v : Word32) : (s.writeHalf off v).ctrl = s.ctrl := rfl
@[simp] theorem State.writeHalf_errcmd (s : State) (off : Offset) (v : Word32) : (s.writeHalf off v).errcmd = s.errcmd := rfl
@[simp] theorem State.writeHalf_flight (s : State) (off : Offset) (v : Word32) : (s.writeHalf off v).flight = s.flight := rfl
@[simp] theorem State.writeHalf_held (s : State) (off : Offset) (v : Word32) : (s.writeHalf off v).held = s.held := rfl
@[simp] theorem State.writeHalf_power (s : State) (off : Offset) (v : Word32) : (s.writeHalf off v).power = s.power := rfl
@[simp] theorem State.writeHalf_accesses (s : State) (off : Offset) (v : Word32) : (s.writeHalf off v).accesses = s.accesses := rfl
@[simp] theorem State.writeHalf_schedule (s : State) (off : Offset) (v : Word32) : (s.writeHalf off v).schedule = s.schedule := rfl
@[simp] theorem State.writeHalf_replies (s : State) (off : Offset) (v : Word32) : (s.writeHalf off v).replies = s.replies := rfl
@[simp] theorem State.writeHalf_draws (s : State) (off : Offset) (v : Word32) : (s.writeHalf off v).draws = s.draws := rfl

/-- A register write changes that register only. -/
theorem State.writeX_x_ne (s : State) {r q : RegId} (v : Word64) (h : q ≠ r) : (s.writeX r v).x[q] = s.x[q] := by
  have : (r : Nat) ≠ q := fun e => h (Fin.ext e.symm)
  simp [this]

/-- A register write is read back. -/
theorem State.writeX_x_self (s : State) (r : RegId) (v : Word64) : (s.writeX r v).x[r] = v := by
  simp

/-- A write of one half changes its register only (R56). -/
theorem State.writeHalf_x_ne (s : State) {off : Offset} {q : RegId} (v : Word32) (h : q ≠ registerAt off) :
    (s.writeHalf off v).x[q] = s.x[q] := State.writeX_x_ne s _ h

/-- An offset of the data registers' part of the window (R51). -/
theorem inRegisters_iff (off : Offset) : inRegisters off = true ↔ 0x020 ≤ off.val ∧ off.val < 0x060 := by
  simp [inRegisters]

/-- The register number an offset belongs to (R51). -/
theorem registerAt_val {off : Offset} (h : inRegisters off = true) : (registerAt off).val = (off.val - 0x020) / 8 := by
  have hb := (inRegisters_iff off).1 h
  simp only [registerAt]
  omega

/-- BUSY is the command in flight (log 8). -/
theorem State.busy_iff (s : State) : s.busy = true ↔ ∃ f, s.flight = some f := by
  simp [State.busy, Option.isSome_iff_exists]

/-- An idle unit has nothing in flight. -/
theorem State.not_busy_iff (s : State) : s.busy = false ↔ s.flight = none := by
  simp [State.busy]

/-! ### The operand accessors of an idle machine (log 17) -/

theorem State.source_of_idle {s : State} (h : s.flight = none) (l : Flight → Option Word64) (r : RegId) :
    s.source l r = s.x[r] := by
  simp [State.source, h]

theorem State.opA_of_idle {s : State} (h : s.flight = none) (f : Fmt) (r : RegId) : s.opA f r = Fmt.view f s.x[r] := by
  simp [State.opA, State.source_of_idle h]

theorem State.opB_of_idle {s : State} (h : s.flight = none) (f : Fmt) (r : RegId) : s.opB f r = Fmt.view f s.x[r] := by
  simp [State.opB, State.source_of_idle h]

theorem State.opC_of_idle {s : State} (h : s.flight = none) (f : Fmt) (r : RegId) : s.opC f r = Fmt.view f s.x[r] := by
  simp [State.opC, State.source_of_idle h]

theorem State.iw_of_idle {s : State} (h : s.flight = none) : s.iw = s.ctrl.iw64 := by
  simp [State.iw, h]

theorem State.widened_of_idle {s : State} (h : s.flight = none) (p : Int) : s.widened p = p := by
  simp [State.widened, h]

theorem State.root_of_idle {s : State} (h : s.flight = none) (w v : Nat) : s.root w v = isqrtEngine w v := by
  simp [State.root, h]

end Sys2Proof.Machine
end

