-- ==== Sys2Proof/Laws/Exec.lean ====
section
/-! SUPPORT. What a command can do, said once: every meaning answers a next state that is a completion of its destination register
or a fault entry with its own word. -/

namespace Sys2Proof.Machine

/-- `t` is `s` with a command completed into `rd`, or with a fault of the word `w` taken. -/
def EndsCommand (rd : RegId) (w : Word32) (s t : State) : Prop :=
  (∃ r ov, t = s.complete rd r ov) ∨ ∃ c, c ≠ Cause.none ∧ t = s.takeFault c w

theorem EndsCommand.of_complete (rd : RegId) (w : Word32) (s : State) (r : Int) (ov : Bool) :
    EndsCommand rd w s (s.complete rd r ov) := .inl ⟨r, ov, rfl⟩

theorem EndsCommand.of_fault (rd : RegId) (w : Word32) (s : State) {c : Cause} (h : c ≠ .none) :
    EndsCommand rd w s (s.takeFault c w) := .inr ⟨c, h, rfl⟩

theorem divide_ends (f : Fmt) (iw : Bool) (rd : RegId) (a b : Int) (w : Word32) (s : State) :
    EndsCommand rd w s (s.divide f iw rd a b w) := by
  unfold State.divide
  split
  · exact .of_fault _ _ _ (by decide)
  · exact .of_complete ..

theorem sqrtFx32_ends (rd rs1 : RegId) (s : State) :
    ∃ t, execSqrtFx32 rd rs1 s = .next t ∧ EndsCommand rd (encode (.sqrtFx32 rd rs1)) s t := by
  unfold execSqrtFx32
  dsimp only
  split
  · exact ⟨_, rfl, .of_fault _ _ _ (by decide)⟩
  · exact ⟨_, rfl, .of_complete ..⟩

theorem sqrtFx64_ends (rd rs1 : RegId) (s : State) :
    ∃ t, execSqrtFx64 rd rs1 s = .next t ∧ EndsCommand rd (encode (.sqrtFx64 rd rs1)) s t := by
  unfold execSqrtFx64
  dsimp only
  split
  · exact ⟨_, rfl, .of_fault _ _ _ (by decide)⟩
  · split
    · split
      · exact ⟨_, rfl, .of_fault _ _ _ (by decide)⟩
      · exact ⟨_, rfl, .of_complete ..⟩
    · exact ⟨_, rfl, .of_complete ..⟩

theorem scale_ends (rd : RegId) (idx : Nat) (s : State) :
    ∃ t, execScale rd idx s = .next t ∧ EndsCommand rd (encode (.scale rd idx)) s t := by
  unfold execScale
  split
  · exact ⟨_, rfl, .of_complete ..⟩
  · exact ⟨_, rfl, .of_fault _ _ _ (by decide)⟩

/-- Every meaning answers a next state that ends the command. -/
theorem exec_ends (i : Instr) (s : State) : ∃ t, exec i s = .next t ∧ EndsCommand i.dest (encode i) s t := by
  cases i with
  | addFx32 rd rs1 rs2 => exact ⟨_, rfl, .of_complete ..⟩
  | addFx64 rd rs1 rs2 => exact ⟨_, rfl, .of_complete ..⟩
  | subFx32 rd rs1 rs2 => exact ⟨_, rfl, .of_complete ..⟩
  | subFx64 rd rs1 rs2 => exact ⟨_, rfl, .of_complete ..⟩
  | mulFx32 rd rs1 rs2 => exact ⟨_, rfl, .of_complete ..⟩
  | mulFx64 rd rs1 rs2 => exact ⟨_, rfl, .of_complete ..⟩
  | divFx32 rd rs1 rs2 => exact ⟨_, rfl, divide_ends ..⟩
  | divFx64 rd rs1 rs2 => exact ⟨_, rfl, divide_ends ..⟩
  | macFx32 rd rs1 rs2 => exact ⟨_, rfl, .of_complete ..⟩
  | macFx64 rd rs1 rs2 => exact ⟨_, rfl, .of_complete ..⟩
  | sqrtFx32 rd rs1 => exact sqrtFx32_ends rd rs1 s
  | sqrtFx64 rd rs1 => exact sqrtFx64_ends rd rs1 s
  | scale rd idx => exact scale_ends rd idx s

/-- A command that has ended is no longer in flight. -/
theorem EndsCommand.flight {rd : RegId} {w : Word32} {s t : State} (h : EndsCommand rd w s t) : t.flight = none := by
  obtain ⟨r, ov, rfl⟩ | ⟨c, -, rfl⟩ := h <;> rfl

/-- The inversion of `exec`. -/
theorem exec_next {i : Instr} {s t : State} (h : exec i s = .next t) : EndsCommand i.dest (encode i) s t := by
  obtain ⟨t', ht, he⟩ := exec_ends i s
  rw [h] at ht
  cases ht
  exact he

/-- The completion of a command in flight ends it. -/
theorem finish_ends (f : Flight) (s : State) :
    ∃ t, finish f s = .next t ∧ ∃ rd w, EndsCommand rd w s t := by
  unfold finish
  split
  · obtain ⟨t, ht, he⟩ := exec_ends ‹_› s
    exact ⟨t, ht, _, _, he⟩
  · exact ⟨_, rfl, 0, f.word, .of_fault _ _ _ (by decide)⟩

end Sys2Proof.Machine
end

