-- ==== Sys2Proof/Laws/PerInstr.lean ====
section
/-! SUPPORT. One lemma per constructor: the family `Row` says that an instruction's word lies in its own row of the opcode map
(30_encoding.md R84). -/

/-- The mask of the instruction's row (R84). -/
def Sys2Proof.Laws.Row.mask : Sys2Proof.Instr → Sys2Proof.Word32
  | .addFx32 _ _ _ => 0xFFFF803F#32
  | .addFx64 _ _ _ => 0xFFFF803F#32
  | .subFx32 _ _ _ => 0xFFFF803F#32
  | .subFx64 _ _ _ => 0xFFFF803F#32
  | .mulFx32 _ _ _ => 0xFFFF803F#32
  | .mulFx64 _ _ _ => 0xFFFF803F#32
  | .divFx32 _ _ _ => 0xFFFF803F#32
  | .divFx64 _ _ _ => 0xFFFF803F#32
  | .macFx32 _ _ _ => 0xFFFF803F#32
  | .macFx64 _ _ _ => 0xFFFF803F#32
  | .sqrtFx32 _ _ => 0xFFFFF03F#32
  | .sqrtFx64 _ _ => 0xFFFFF03F#32
  | .scale _ _ => 0xFFF07E3F#32

/-- The match value of the instruction's row (R84). -/
def Sys2Proof.Laws.Row.pattern : Sys2Proof.Instr → Sys2Proof.Word32
  | .addFx32 _ _ _ => 0x00000001#32
  | .addFx64 _ _ _ => 0x00000011#32
  | .subFx32 _ _ _ => 0x00000002#32
  | .subFx64 _ _ _ => 0x00000012#32
  | .mulFx32 _ _ _ => 0x00000003#32
  | .mulFx64 _ _ _ => 0x00000013#32
  | .divFx32 _ _ _ => 0x00000004#32
  | .divFx64 _ _ _ => 0x00000014#32
  | .macFx32 _ _ _ => 0x00000005#32
  | .macFx64 _ _ _ => 0x00000015#32
  | .sqrtFx32 _ _ => 0x00000006#32
  | .sqrtFx64 _ _ => 0x00000016#32
  | .scale _ _ => 0x00000017#32

/-- The instruction's word is in its row. -/
def Sys2Proof.Laws.Row.Statement (i : Sys2Proof.Instr) : Prop :=
  Sys2Proof.encode i &&& Sys2Proof.Laws.Row.mask i = Sys2Proof.Laws.Row.pattern i

theorem Sys2Proof.Laws.Row.addFx32 (rd rs1 rs2 : Sys2Proof.RegId) :
    Sys2Proof.Laws.Row.Statement (.addFx32 rd rs1 rs2) := Sys2Proof.regForm_row rd rs1 rs2 (by decide)

theorem Sys2Proof.Laws.Row.addFx64 (rd rs1 rs2 : Sys2Proof.RegId) :
    Sys2Proof.Laws.Row.Statement (.addFx64 rd rs1 rs2) := Sys2Proof.regForm_row rd rs1 rs2 (by decide)

theorem Sys2Proof.Laws.Row.subFx32 (rd rs1 rs2 : Sys2Proof.RegId) :
    Sys2Proof.Laws.Row.Statement (.subFx32 rd rs1 rs2) := Sys2Proof.regForm_row rd rs1 rs2 (by decide)

theorem Sys2Proof.Laws.Row.subFx64 (rd rs1 rs2 : Sys2Proof.RegId) :
    Sys2Proof.Laws.Row.Statement (.subFx64 rd rs1 rs2) := Sys2Proof.regForm_row rd rs1 rs2 (by decide)

theorem Sys2Proof.Laws.Row.mulFx32 (rd rs1 rs2 : Sys2Proof.RegId) :
    Sys2Proof.Laws.Row.Statement (.mulFx32 rd rs1 rs2) := Sys2Proof.regForm_row rd rs1 rs2 (by decide)

theorem Sys2Proof.Laws.Row.mulFx64 (rd rs1 rs2 : Sys2Proof.RegId) :
    Sys2Proof.Laws.Row.Statement (.mulFx64 rd rs1 rs2) := Sys2Proof.regForm_row rd rs1 rs2 (by decide)

theorem Sys2Proof.Laws.Row.divFx32 (rd rs1 rs2 : Sys2Proof.RegId) :
    Sys2Proof.Laws.Row.Statement (.divFx32 rd rs1 rs2) := Sys2Proof.regForm_row rd rs1 rs2 (by decide)

theorem Sys2Proof.Laws.Row.divFx64 (rd rs1 rs2 : Sys2Proof.RegId) :
    Sys2Proof.Laws.Row.Statement (.divFx64 rd rs1 rs2) := Sys2Proof.regForm_row rd rs1 rs2 (by decide)

theorem Sys2Proof.Laws.Row.macFx32 (rd rs1 rs2 : Sys2Proof.RegId) :
    Sys2Proof.Laws.Row.Statement (.macFx32 rd rs1 rs2) := Sys2Proof.regForm_row rd rs1 rs2 (by decide)

theorem Sys2Proof.Laws.Row.macFx64 (rd rs1 rs2 : Sys2Proof.RegId) :
    Sys2Proof.Laws.Row.Statement (.macFx64 rd rs1 rs2) := Sys2Proof.regForm_row rd rs1 rs2 (by decide)

theorem Sys2Proof.Laws.Row.sqrtFx32 (rd rs1 : Sys2Proof.RegId) :
    Sys2Proof.Laws.Row.Statement (.sqrtFx32 rd rs1) := Sys2Proof.sqrtForm_row rd rs1 (by decide)

theorem Sys2Proof.Laws.Row.sqrtFx64 (rd rs1 : Sys2Proof.RegId) :
    Sys2Proof.Laws.Row.Statement (.sqrtFx64 rd rs1) := Sys2Proof.sqrtForm_row rd rs1 (by decide)

theorem Sys2Proof.Laws.Row.scale (rd : Sys2Proof.RegId) (idx : Nat) :
    Sys2Proof.Laws.Row.Statement (.scale rd idx) := Sys2Proof.scaleForm_row rd idx (by decide)
end

