-- ==== Sys2Proof/Laws/Step.lean ====
section
/-! SUPPORT. What one host access, one FXU move and one step can do, each said once. -/

namespace Sys2Proof.Machine

/-- What a presented command word can do (R209). -/
inductive Presented (w : Word32) (s t : State) : Prop where
  | dropped (err : s.status.err = true) (eq : t = s.dropCommand)
  | illegal (err : s.status.err = false) (dec : decode w = none) (eq : t = s.takeFault .illegal w)
  | accepted (i : Instr) (err : s.status.err = false) (dec : decode w = some i) (eq : t = s.accept w i)
  | executed (i : Instr) (err : s.status.err = false) (dec : decode w = some i) (run : exec i s = .next t)

theorem present_presents (atomic : Bool) (w : Word32) (s : State) : ∃ t, present atomic w s = .next t ∧ Presented w s t := by
  unfold present
  cases herr : s.status.err with
  | true => exact ⟨_, rfl, .dropped herr rfl⟩
  | false =>
    cases hdec : decode w with
    | none => exact ⟨_, rfl, .illegal herr hdec rfl⟩
    | some i =>
      cases atomic with
      | false => exact ⟨_, rfl, .accepted i herr hdec rfl⟩
      | true =>
        obtain ⟨t, ht, -⟩ := exec_ends i s
        exact ⟨t, ht, .executed i herr hdec ht⟩

/-- What an accepted 32-bit write of any register but CMD can do (R58): the register addressed, and where there is none, nothing. -/
inductive Wrote32 (off : Offset) (v : Word32) (s t : State) : Prop where
  | status (at_ : off.val = 0x004) (eq : t = s.writeStatus v)
  | ctrl (at_ : off.val = 0x008) (eq : t = s.writeCtrl v)
  | half (at_ : inRegisters off = true) (eq : t = s.writeHalf off v)
  | ignored (ne4 : off.val ≠ 0x004) (ne8 : off.val ≠ 0x008) (nx : inRegisters off = false) (eq : t = s)

theorem write32_wrote (off : Offset) (v : Word32) (s : State) : Wrote32 off v s (s.write32 off v) := by
  unfold State.write32
  split
  · exact .status ‹_› rfl
  · split
    · exact .ctrl ‹_› rfl
    · split
      · exact .half ‹_› rfl
      · exact .ignored ‹_› ‹_› (Bool.eq_false_iff.2 ‹_›) rfl

/-- What one performed host access can do (R54, R58). -/
inductive Performed (a : Access) (s t : State) : Prop where
  | read (r : Reply) (acc : a.accepted = true) (eq : t = s.answer r)
  | rejectedRead (acc : a.accepted = false) (eq : t = s.rejectRead)
  | rejectedWrite (acc : a.accepted = false) (eq : t = s.rejectWrite)
  | command (w : Word32) (cmd : a = .w32 0 w) (pre : Presented w (s.answer .written) t)
  | write32 (off : Offset) (v : Word32) (cmd : a = .w32 off v) (ne : off.val ≠ 0) (acc : a.accepted = true)
      (eq : t = (s.answer .written).write32 off v)
  | write64 (off : Offset) (v : Word64) (cmd : a = .w64 off v) (acc : a.accepted = true)
      (eq : t = (s.answer .written).writeX (registerAt off) v)

theorem performAccess_performs (atomic : Bool) (a : Access) (s : State) :
    ∃ t, performAccess atomic a s = .next t ∧ Performed a s t := by
  cases a with
  | r8 off => exact ⟨_, rfl, .rejectedRead rfl rfl⟩
  | r16 off => exact ⟨_, rfl, .rejectedRead rfl rfl⟩
  | w8 off v => exact ⟨_, rfl, .rejectedWrite rfl rfl⟩
  | w16 off v => exact ⟨_, rfl, .rejectedWrite rfl rfl⟩
  | r32 off =>
    cases h : (Access.r32 off).accepted with
    | true => exact ⟨_, by simp only [performAccess, h, if_true], .read (.data32 (s.read32 off)) h rfl⟩
    | false => exact ⟨_, by simp only [performAccess, h, Bool.false_eq_true, if_false], .rejectedRead h rfl⟩
  | r64 off =>
    cases h : (Access.r64 off).accepted with
    | true => exact ⟨_, by simp only [performAccess, h, if_true], .read (.data64 (s.readX (registerAt off))) h rfl⟩
    | false => exact ⟨_, by simp only [performAccess, h, Bool.false_eq_true, if_false], .rejectedRead h rfl⟩
  | w32 off v =>
    cases h : (Access.w32 off v).accepted with
    | false => exact ⟨_, by simp only [performAccess, h, Bool.false_eq_true, if_false], .rejectedWrite h rfl⟩
    | true =>
      by_cases h0 : off.val = 0
      · obtain ⟨t, ht, hp⟩ := present_presents atomic v (s.answer .written)
        have h0' : off = 0 := Fin.ext h0
        exact ⟨t, by simp only [performAccess, h, h0, if_true]; exact ht, .command v (by rw [h0']) hp⟩
      · exact ⟨_, by simp only [performAccess, h, h0, if_true, if_false], .write32 off v rfl h0 h rfl⟩
  | w64 off v =>
    cases h : (Access.w64 off v).accepted with
    | true => exact ⟨_, by simp only [performAccess, h, if_true], .write64 off v rfl h rfl⟩
    | false => exact ⟨_, by simp only [performAccess, h, Bool.false_eq_true, if_false], .rejectedWrite h rfl⟩

/-- The inversion of `performAccess`. -/
theorem performAccess_next {atomic : Bool} {a : Access} {s t : State} (h : performAccess atomic a s = .next t) :
    Performed a s t := by
  obtain ⟨t', ht, hp⟩ := performAccess_performs atomic a s
  rw [h] at ht
  cases ht
  exact hp

/-- A performed STATUS read only answers. -/
theorem performAccess_statusRead (atomic : Bool) {a : Access} (h : a.isStatusRead = true) (s : State) :
    performAccess atomic a s = .next (s.answer (.data32 s.statusWord)) := by
  cases a with
  | r32 off =>
    have h4 : off.val = 4 := by simpa [Access.isStatusRead] using h
    simp [performAccess, Access.accepted, State.read32, h4]
  | r8 | r16 | r64 | w8 | w16 | w32 | w64 => simp [Access.isStatusRead] at h

/-- What one move of the FXU can do: nothing, one shift of the engine, or the completion. -/
inductive FxuMoved (s t : State) : Prop where
  | idle (fl : s.flight = none) (eq : t = s)
  | shift (f : Flight) (e : Engine) (fl : s.flight = some f) (wk : f.work = .sqrt e) (bit : e.bit ≠ 0)
      (eq : t = { s with flight := some { f with work := .sqrt e.advance } })
  | finished (f : Flight) (fl : s.flight = some f) (wk : ∀ e, f.work = .sqrt e → e.bit = 0) (run : finish f s = .next t)

theorem fxuTurn_moves (s : State) : ∃ t, fxuTurn s = .next t ∧ FxuMoved s t := by
  unfold fxuTurn
  split
  · exact ⟨_, rfl, .idle ‹_› rfl⟩
  · rename_i f hf
    obtain ⟨t, ht, -⟩ := finish_ends f s
    split
    · rename_i e he
      split
      · rename_i hb
        exact ⟨t, ht, .finished f hf (fun e' h => by rw [he] at h; cases h; exact hb) ht⟩
      · exact ⟨_, rfl, .shift f e hf he ‹_› rfl⟩
    · rename_i he
      exact ⟨t, ht, .finished f hf (fun e' h => by rw [he] at h; cases h) ht⟩
    · rename_i he
      exact ⟨t, ht, .finished f hf (fun e' h => by rw [he] at h; cases h) ht⟩

/-- The inversion of `fxuTurn`. -/
theorem fxuTurn_next {s t : State} (h : fxuTurn s = .next t) : FxuMoved s t := by
  obtain ⟨t', ht, hp⟩ := fxuTurn_moves s
  rw [h] at ht
  cases ht
  exact hp

/-- What one step can do, with the schedule it leaves: `s0` is `s` with its scheduled turn taken off. -/
inductive Stepped (s t : State) : Prop where
  /-- A released access is performed (R60). -/
  | released (a : Access) (held : s.held = some a) (pow : s.power = .running) (fl : s.flight = none)
      (eff : Performed a { s with held := none } t)
  /-- The host's next access is performed (R59). -/
  | performed (ts : List Turn) (a : Access) (rest : List Access) (acc : s.accesses = a :: rest) (pow : s.power = .running)
      (held : s.held = none) (free : s.flight = none ∨ a.isStatusRead = true)
      (eff : Performed a { s with schedule := ts, accesses := rest } t)
  /-- The host's next access is held (R60). -/
  | held (ts : List Turn) (a : Access) (rest : List Access) (acc : s.accesses = a :: rest) (pow : s.power = .running)
      (fl : s.flight ≠ none) (ns : a.isStatusRead = false)
      (eq : t = { s with schedule := ts, accesses := rest, held := some a })
  /-- The FXU moves. -/
  | fxu (ts : List Turn) (pow : s.power = .running) (eff : FxuMoved { s with schedule := ts } t)
  /-- The reset input is asserted, or stays asserted until it is released (R240). -/
  | reset (ts : List Turn) (p : Power) (np : p ≠ .off) (eq : t = ({ s with schedule := ts } : State).toReset p)
  /-- The supply is taken away (R218). -/
  | powerDown (ts : List Turn) (eq : t = ({ s with schedule := ts } : State).losePower)
  /-- Nothing happens but that the turn passes. -/
  | passed (ts : List Turn) (eq : t = { s with schedule := ts })

theorem hostTurn_stepped {atomic : Bool} {ts : List Turn} {s t : State}
    (h : hostTurn atomic { s with schedule := ts } = .next t) : Stepped s t := by
  unfold hostTurn at h
  dsimp only at h
  split at h
  · cases h; exact .passed ts rfl
  · rename_i a rest hacc
    split at h
    · cases h
    · cases h; exact .passed ts rfl
    · rename_i hpow
      split at h
      · cases h; exact .passed ts rfl
      · rename_i hheld
        split at h
        · rename_i hb
          cases h
          simp only [Bool.and_eq_true, Bool.not_eq_true', State.busy] at hb
          exact .held ts a rest hacc hpow (by rw [← Option.isSome_iff_ne_none]; exact hb.1) hb.2 rfl
        · rename_i hb
          refine .performed ts a rest hacc hpow hheld ?_ (performAccess_next h)
          simp only [Bool.and_eq_true, Bool.not_eq_true', State.busy, not_and_or, Bool.not_eq_true, Bool.not_eq_false] at hb
          exact hb.imp (by simp) id

theorem takeTurn_stepped {atomic : Bool} {turn : Turn} {ts : List Turn} {s t : State}
    (h : takeTurn atomic turn { s with schedule := ts } = .next t) : Stepped s t := by
  cases turn with
  | fxu =>
    simp only [takeTurn] at h
    split at h
    · exact .fxu ts ‹_› (fxuTurn_next h)
    · cases h; exact .passed ts rfl
  | host => exact hostTurn_stepped h
  | assertReset => cases h; exact .reset ts .inReset (by decide) rfl
  | releaseReset =>
    simp only [takeTurn] at h
    split at h
    · cases h; exact .reset ts .running (by decide) rfl
    · cases h; exact .passed ts rfl
  | powerDown => cases h; exact .powerDown ts rfl

/-- The inversion of `step`: the one place where it is taken apart. -/
theorem step_next {s t : State} (h : step s = .next t) : Stepped s t := by
  unfold step at h
  split at h
  · rename_i a ha
    unfold releasedAccess at ha
    split at ha
    · rename_i hp
      simp only [Bool.and_eq_true, decide_eq_true_eq, Bool.not_eq_true'] at hp
      exact .released a ha hp.1 ((State.not_busy_iff s).1 hp.2) (performAccess_next h)
    · cases ha
  · split at h
    · exact takeTurn_stepped h
    · rename_i hs
      exact takeTurn_stepped (ts := []) (by rw [← hs]; exact h)

end Sys2Proof.Machine
end

