-- ==== Sys2Proof/Tests/Slice0.lean ====
section
/-! SUPPORT. The model's own tests: the expected values are those of 95_test_vectors.md, of the rules' own corner cases, or worked out by
hand from the encoding strings of 30_encoding.md R84. Then a witness for the hypotheses of every statement that has some. -/

namespace Sys2Proof.Tests

open Sys2Proof.Machine Sys2Proof.Claims

/-! ### Helpers -/

/-- The reset state with some data registers loaded and CTRL.IW64 chosen. -/
def setup (xs : List (RegId × Int)) (iw : Bool) : State :=
  { State.reset with
    x := xs.foldl (fun v p => v.set p.1 (BitVec.ofInt 64 p.2)) State.reset.x
    ctrl := ⟨iw, false, false⟩ }

/-- What a next state shows. -/
def after {α : Type} (r : Result) (f : State → α) : Option α :=
  match r with
  | .next t => some (f t)
  | .fault _ => none
  | .refused _ => none

/-- A register as a signed integer, and STATUS. -/
def shows (rd : RegId) (t : State) : Int × Word32 := (t.x[rd].toInt, t.statusWord)

/-- One command from a state of loaded registers: the register it writes and STATUS. -/
def runs (i : Instr) (rd : RegId) (xs : List (RegId × Int)) (iw : Bool) : Option (Int × Word32) :=
  after (exec i (setup xs iw)) (shows rd)

/-- The same state with the command accepted. -/
def inFlight (w : Word32) (i : Instr) (s : State) : State := s.accept w i

/-! ### Well-formedness (R89) -/

theorem test_wellFormed_accepts_scale_31 : wellFormed (.scale 5 31) = true := by decide
theorem test_wellFormed_refuses_scale_32 : wellFormed (.scale 5 32) = false := by decide

/-! ### Decoding: each word written from the encoding string of R84 -/

theorem test_decode_addFx32 : decode 0b00000000000000000010001011000001#32 = some (.addFx32 3 1 2) := by decide
theorem test_decode_addFx64 : decode 0b00000000000000000111110101010001#32 = some (.addFx64 5 6 7) := by decide
theorem test_decode_subFx32 : decode 0b00000000000000000001010100000010#32 = some (.subFx32 4 2 1) := by decide
theorem test_decode_subFx64 : decode 0b00000000000000000100000001010010#32 = some (.subFx64 1 0 4) := by decide
theorem test_decode_mulFx32 : decode 0b00000000000000000010001011000011#32 = some (.mulFx32 3 1 2) := by decide
theorem test_decode_mulFx64 : decode 0b00000000000000000101101111010011#32 = some (.mulFx64 7 5 5) := by decide
theorem test_decode_divFx32 : decode 0b00000000000000000011000100000100#32 = some (.divFx32 4 0 3) := by decide
theorem test_decode_divFx64 : decode 0b00000000000000000001000010010100#32 = some (.divFx64 2 0 1) := by decide
theorem test_decode_macFx32 : decode 0b00000000000000000010001000000101#32 = some (.macFx32 0 1 2) := by decide
theorem test_decode_macFx64 : decode 0b00000000000000000010001000010101#32 = some (.macFx64 0 1 2) := by decide
theorem test_decode_sqrtFx32 : decode 0b00000000000000000000010011000110#32 = some (.sqrtFx32 3 2) := by decide
theorem test_decode_sqrtFx64 : decode 0b00000000000000000000000001010110#32 = some (.sqrtFx64 1 0) := by decide
theorem test_decode_scale : decode 0b00000000000000110000000101010111#32 = some (.scale 5 6) := by decide

/-- R85's example and the words of 95_test_vectors.md section 9. -/
theorem test_encode_written_words :
    encode (.addFx32 3 1 2) = 0x000022C1#32 ∧ encode (.divFx64 2 0 1) = 0x00001094#32 ∧
      encode (.scale 7 19) = 0x000981D7#32 ∧ encode (.sqrtFx32 3 2) = 0x000004C6#32 := by decide

/-- The illegal words of 95_test_vectors.md section 2. -/
theorem test_decode_illegal :
    [0x00000000#32, 0x00000008#32, 0x0000001F#32, 0x000000E1#32, 0x000000F1#32, 0x00030147#32, 0x800022C1#32, 0x001022C1#32,
      0x0000A2C1#32, 0x00001046#32, 0x00030357#32, 0x00031157#32].map decode = List.replicate 12 none := by decide

theorem test_decodeTableWord : decodeTableWord 32 0x00030157 = some (.scale 5 6) := by decide

/-! ### Commands (95_test_vectors.md sections 3 to 6) -/

theorem test_addFx32_wraps :
    runs (.addFx32 3 1 2) 3 [(1, 2147483647), (2, 1)] false = some (-2147483648, 0xA#32) := by decide
theorem test_addFx32_ignores_upper_bits :
    runs (.addFx32 3 1 2) 3 [(1, 0xFFFFFFFF000005DC), (2, 0x12345678000008CA)] false = some (3750, 0x2#32) := by decide
theorem test_addFx64_negative :
    runs (.addFx64 3 1 2) 3 [(1, 1500000), (2, -2500000)] true = some (-1000000, 0x2#32) := by decide
theorem test_addFx64_wraps :
    runs (.addFx64 3 1 2) 3 [(1, 9223372036854775807), (2, 1)] false = some (-9223372036854775808, 0xA#32) := by decide
theorem test_subFx32_order :
    runs (.subFx32 3 1 2) 3 [(1, 1500), (2, 2250)] false = some (-750, 0x2#32) := by decide
theorem test_subFx32_wraps :
    runs (.subFx32 3 1 2) 3 [(2, -2147483648)] false = some (-2147483648, 0xA#32) := by decide
theorem test_subFx64_order :
    runs (.subFx64 3 1 2) 3 [(1, 1500000), (2, -2500000)] false = some (4000000, 0x2#32) := by decide
theorem test_subFx64_wraps :
    runs (.subFx64 3 1 2) 3 [(1, -9223372036854775808), (2, 1)] false = some (9223372036854775807, 0xA#32) := by decide
theorem test_mulFx32_truncates_toward_zero :
    runs (.mulFx32 3 1 2) 3 [(1, -1500), (2, 1)] false = some (-1, 0x2#32) := by decide
theorem test_mulFx32_narrows :
    runs (.mulFx32 3 1 2) 3 [(1, 2147483647), (2, 2147483647)] false = some (-760209212, 0xA#32) := by decide
theorem test_mulFx64_wide :
    runs (.mulFx64 3 1 2) 3 [(1, 2 ^ 40), (2, 2 ^ 40)] false = some (1208925819614629174, 0x2#32) := by decide
theorem test_mulFx64_narrow_mode :
    runs (.mulFx64 3 1 2) 3 [(1, 2 ^ 40), (2, 2 ^ 40)] true = some (0, 0xA#32) := by decide
theorem test_divFx32_truncates_toward_zero :
    runs (.divFx32 3 1 2) 3 [(1, 1), (2, -3)] false = some (-333, 0x2#32) := by decide
theorem test_divFx32_by_zero_low_half :
    after (exec (.divFx32 3 1 2) (setup [(1, 5), (2, 0x100000000), (3, 9)] false)) (fun t => (shows 3 t, t.errcmd)) =
      some ((9, 0x204#32), 0x000022C4#32) := by decide
theorem test_divFx64_wide :
    runs (.divFx64 3 1 2) 3 [(1, 2 ^ 57), (2, -1)] false = some (-9223372036854775808, 0xA#32) := by decide
theorem test_divFx64_narrow_mode :
    runs (.divFx64 3 1 2) 3 [(1, 10 ^ 13), (2, 10 ^ 6)] true = some (-8446744073709, 0xA#32) := by decide
theorem test_macFx32_product_truncates_first :
    runs (.macFx32 0 1 2) 0 [(0, 7), (1, 1), (2, 500)] false = some (7, 0x2#32) := by decide
theorem test_macFx32_reads_before_writing :
    runs (.macFx32 1 1 2) 1 [(1, 2000), (2, 3000)] false = some (8000, 0x2#32) := by decide
theorem test_macFx64_wide :
    runs (.macFx64 0 1 2) 0 [(0, 5), (1, 2 ^ 40), (2, 2 ^ 40)] false = some (1208925819614629179, 0x2#32) := by decide
theorem test_macFx64_narrow_mode :
    runs (.macFx64 0 1 2) 0 [(0, 5), (1, 2 ^ 40), (2, 2 ^ 40)] true = some (5, 0xA#32) := by decide
theorem test_sqrtFx32_largest :
    runs (.sqrtFx32 1 0) 1 [(0, 2147483647)] false = some (1465429, 0x2#32) := by decide
theorem test_sqrtFx32_negative :
    after (exec (.sqrtFx32 1 0) (setup [(0, -1), (1, 9)] false)) (fun t => (shows 1 t, t.errcmd)) =
      some ((9, 0x304#32), 0x00000046#32) := by decide
theorem test_sqrtFx64_source_scenario :
    runs (.sqrtFx64 1 0) 1 [(0, 2000000)] false = some (1414213, 0x2#32) := by decide +kernel
theorem test_sqrtFx64_narrow_mode_overflow :
    runs (.sqrtFx64 1 0) 1 [(0, 9223372036855)] true = some (0, 0x504#32) := by decide
theorem test_scale_last_entry : runs (.scale 5 18) 5 [] false = some (1000000000000000000, 0x2#32) := by decide
theorem test_scale_out_of_range : runs (.scale 5 19) 5 [(5, 3)] false = some (3, 0x404#32) := by decide

/-! ### The square-root engine's traces (95_test_vectors.md section 5.1) -/

theorem test_engine_aligns : Engine.run 27 (engineStart 64 1000) = ⟨1000, 0, 256, true⟩ := by decide
theorem test_engine_second_iteration : Engine.run 29 (engineStart 64 1000) = ⟨424, 192, 16, false⟩ := by decide
theorem test_engine_zero : Engine.run 32 (engineStart 64 0) = ⟨0, 0, 0, true⟩ := by decide
theorem test_engine_128 : Engine.run 63 (engineStart 128 2000000000000) = ⟨4419056, 2828424, 1, false⟩ := by
  decide +kernel

/-! ### The host window, presentation and reset (95_test_vectors.md sections 7 and 8) -/

/-- A state with STATUS = 0x204, after a DIVZ. -/
def afterDivz : State := { setup [] false with status := ⟨false, true, false, false, .divz⟩, errcmd := 0x00001094#32 }

theorem test_V2_dropped :
    after (performAccess true (.w32 0x000 0x00000091#32) afterDivz) (fun t => (t.statusWord, t.errcmd)) =
      some (0x214#32, 0x00001094#32) := by decide
theorem test_V3_clear_err :
    after (performAccess true (.w32 0x004 0x00000004#32) afterDivz.dropCommand) State.statusWord = some 0x010#32 := by decide
theorem test_V5_other_bits_ignored :
    after (performAccess true (.w32 0x004 0xFFFFFFE1#32) { setup [] false with status := ⟨true, false, true, false, .none⟩ })
      State.statusWord = some 0x00A#32 := by decide
/-- The register image V9 gives in hexadecimal; its decimal "10000000000" is another number (log 19). -/
theorem test_V9_halves :
    after (performAccess true (.w32 0x024 0x00000002#32) (setup [(0, 0x9502F900)] false)) (fun t => t.x[(0 : RegId)]) =
      some 0x000000029502F900#64 := by decide
theorem test_V10_high_half :
    (setup [(0, 0x1122334455667788)] false).read32 0x024 = 0x11223344#32 := by decide
theorem test_V12_ctrl :
    after (performAccess true (.w32 0x008 0xFFFFFFFF#32) (setup [] false)) (State.read32 0x008) = some 0x7#32 := by decide
theorem test_V17_illegal :
    after (performAccess true (.w32 0x000 0#32) (setup [] false)) (fun t => (t.statusWord, t.errcmd)) =
      some (0x104#32, 0#32) := by decide

/-- V15: a STATUS read while a command is in flight. -/
theorem test_V15_status_while_busy :
    after (step { inFlight 0x56#32 (.sqrtFx64 1 0) (setup [(0, 2000000)] false) with
      accesses := [.r32 0x004], schedule := [.host] }) State.replies = some [.data32 0x1#32] := by decide

/-- V16: another access is held. -/
theorem test_V16_held_while_busy :
    after (step { inFlight 0x56#32 (.sqrtFx64 1 0) (setup [(0, 2000000)] false) with
      accesses := [.r64 0x020], schedule := [.host] }) (fun t => (t.held, t.replies)) = some (some (.r64 0x020), []) := by decide

/-- A command in flight whose engine has stopped is completed by the FXU's next move, from its latched operand. -/
theorem test_completion_of_a_command_in_flight :
    after (step { setup [(0, 7)] false with
      flight := some ⟨0x46#32, some 2000#64, none, none, false, .sqrt ⟨604, 1414, 0, false⟩⟩, schedule := [.fxu] }) (shows 1) =
      some (1414, 0x2#32) := by decide

/-- RS2: the ROM needs no initialisation; a word placed by `withFetchWord` runs in the next step. -/
theorem test_withFetchWord_runs :
    after (step (State.reset.withFetchWord 32 0x00030017)) (shows 0) = some (1000000, 0x2#32) := by decide

/-- RS1: reset abandons the command in flight. -/
theorem test_reset_abandons :
    after (step { inFlight 0x56#32 (.sqrtFx64 1 0) (setup [(0, 2000000)] false) with schedule := [.assertReset] })
      (fun t => (shows 0 t, t.flight)) = some ((0, 0x0#32), none) := by decide

/-! ### Witnesses: every statement's hypotheses can be met, each clause at a boundary value -/

/-- The idle states of the statements about one command. -/
theorem witness_idle : (setup [(1, 1500), (2, 2250)] false).flight = none := by decide

theorem witness_AddFx32WritesWrappedSum : (setup [(1, 2147483647), (2, 1)] false).flight = none := by decide
theorem witness_AddFx64WritesWrappedSum : (setup [(1, 9223372036854775807), (2, 1)] false).flight = none := by decide
theorem witness_SubFx32WritesWrappedDifference : (setup [(1, -2147483648), (2, 1)] false).flight = none := by decide
theorem witness_SubFx64WritesWrappedDifference : (setup [(1, -9223372036854775808), (2, 1)] false).flight = none := by decide
theorem witness_MulFx32WritesProduct : (setup [(1, -2147483648), (2, -2147483648)] false).flight = none := by decide
theorem witness_MulFx64WritesProduct :
    (setup [(1, 2 ^ 40), (2, 2 ^ 40)] true).flight = none ∧ (setup [(1, 2 ^ 40), (2, 2 ^ 40)] false).flight = none := by decide
theorem witness_DivFx32WritesQuotientOrFaultsOnZero :
    (setup [(2, 1)] false).flight = none ∧ low32 (setup [(2, 1)] false) 2 ≠ 0 ∧
      low32 (setup [(2, 0x100000000)] false) 2 = 0 := by decide
theorem witness_DivFx64WritesQuotientOrFaultsOnZero :
    (setup [(2, -1)] true).flight = none ∧ full64 (setup [(2, -1)] true) 2 ≠ 0 ∧ full64 (setup [] false) 2 = 0 := by decide
theorem witness_MacFx32AddsNarrowedProduct : (setup [(0, 2147483647), (1, 1000), (2, 1)] false).flight = none := by decide
theorem witness_MacFx64AddsNarrowedProduct : (setup [(0, 5), (1, 2 ^ 40), (2, 2 ^ 40)] true).flight = none := by decide
theorem witness_SqrtFx32WritesFloorRootOrFaults :
    (setup [(0, -1)] false).flight = none ∧ 0 ≤ low32 (setup [] false) 0 ∧ low32 (setup [(0, -1)] false) 0 < 0 := by decide

/-- R173's four cases at their boundary operands 9223372036854 and 9223372036855. -/
theorem witness_SqrtFx64WritesFloorRootOrFaults :
    full64 (setup [(0, -1)] true) 0 < 0 ∧ 0 ≤ full64 (setup [] false) 0 ∧ (setup [] false).ctrl.iw64 = false ∧
      (setup [(0, 9223372036855)] true).ctrl.iw64 = true ∧ 0 ≤ full64 (setup [(0, 9223372036855)] true) 0 ∧
      IsWrap 64 (full64 (setup [(0, 9223372036855)] true) 0 * 1000000) (-9223372036854551616) ∧
      IsWrap 64 (full64 (setup [(0, 9223372036854)] true) 0 * 1000000) 9223372036854000000 := by
  unfold IsWrap InRange
  decide

theorem witness_DecodeOfEncodeIsTheInstruction : wellFormed (.scale 7 31) = true := by decide
theorem witness_EncodeOfDecodeIsTheWord : decode 0x00098157#32 = some (.scale 5 19) := by decide
theorem witness_IllegalWordsAreExactlyThese :
    (setup [] false).status.err = false ∧ decode 0x00000000#32 = none ∧ 19 ≤ 31 ∧ 0x000F8157#32 = encode (.scale 5 31) ∧
      0x00098157#32 = encode (.scale 5 19) := by decide
theorem witness_EngineComputesFloorRoot : (64 = 64 ∨ 64 = 128) ∧ 2 ^ 63 - 1 < 2 ^ (64 - 1) ∧ 2 ^ 127 - 1 < 2 ^ (128 - 1) := by
  decide
theorem witness_EngineMakesExactlyHalfWidthShifts : 31 < 64 / 2 ∧ 64 / 2 ≤ 32 ∧ 63 < 128 / 2 ∧ 128 / 2 ≤ 64 := by decide
theorem witness_EngineValuesStayInWidth : (128 = 64 ∨ 128 = 128) ∧ 2 ^ 127 - 1 < 2 ^ (128 - 1) := by decide
theorem witness_ScaleRomHoldsPowersOfTen : 18 ≤ 18 ∧ 18 < 19 ∧ romEntry 18 = some 1000000000000000000#64 := by decide
theorem witness_ScaleWritesPowerOfTenOrFaults : 18 ≤ 18 ∧ 18 < 19 ∧ 19 ≤ 31 ∧ 31 ≤ 31 := by decide
theorem witness_IntegerFunctionsMeetTheirDefinitions : 0 < 64 ∧ (-1 : Int) ≠ 0 := by decide

/-- A completing and a faulting command answer next states, so that the frame statements have something to say. -/
theorem witness_CommandsChangeNoOtherWindowByte :
    after (exec (.addFx32 3 1 2) (setup [] false)) (fun t => t.status.err) = some false ∧
      after (exec (.divFx32 3 1 2) (setup [] false)) (fun t => t.status.err) = some true ∧
      ¬ (0x004 ≤ (0x020 : Offset).val ∧ (0x020 : Offset).val < 0x008) := by decide
theorem witness_FaultCausesAreRaisedExactlyWhen :
    (setup [] true).flight = none ∧ (setup [] true).status.err = false ∧ (setup [] true).status.cause = .none ∧
      wellFormed (.divFx64 3 1 2) = true ∧ wellFormed (.sqrtFx32 3 1) = true ∧ wellFormed (.scale 3 19) = true ∧
      wellFormed (.sqrtFx64 3 1) = true ∧
      after (exec (.divFx64 3 1 2) (setup [] true)) (fun t => t.status.cause) = some .divz ∧
      after (exec (.sqrtFx32 3 1) (setup [(1, -1)] true)) (fun t => t.status.cause) = some .sqrtNeg ∧
      after (exec (.scale 3 19) (setup [] true)) (fun t => t.status.cause) = some .scaleRange ∧
      after (exec (.sqrtFx64 3 1) (setup [(1, 9223372036855)] true)) (fun t => t.status.cause) = some .sqrtOvf := by decide

/-- Two states that agree in the low halves only. -/
theorem witness_Fx32IgnoresUpperHalvesAndCtrl :
    IsFx32 (.sqrtFx32 1 0) ∧
      (∀ r : RegId, (setup [(0, 0x80000000000007D0)] true).x[r].setWidth 32 = (setup [(0, 2000)] false).x[r].setWidth 32) ∧
      (setup [(0, 0x80000000000007D0)] true).status = (setup [(0, 2000)] false).status ∧
      after (exec (.sqrtFx32 1 0) (setup [(0, 2000)] false)) (fun t => t.status.err) = some false :=
  ⟨trivial, by decide, by decide, by decide⟩
theorem witness_NarrowModeAgreesUnlessOverflow :
    (setup [(0, 9223372036854)] true).status.ov = false ∧ (setup [(0, 9223372036854)] true).ctrl.iw64 = true ∧
      after (exec (.sqrtFx64 1 0) (setup [(0, 9223372036854)] true)) (shows 1) = some (3037000499, 0x2#32) := by decide
theorem witness_MacIsMulThenAdd : (setup [(0, 5)] true).flight = none ∧ (3 : RegId) ≠ 0 := by decide
theorem witness_SubUndoesAdd : (setup [(1, 2147483647), (2, 1)] false).flight = none ∧ (3 : RegId) ≠ 2 := by decide

/-- ERR = 1; an illegal word with ERR = 0; a legal word with ERR = 0. -/
theorem witness_CmdWriteDropsFaultsOrAccepts :
    afterDivz.status.err = true ∧ (setup [] false).status.err = false ∧ decode 0x00000008#32 = none ∧
      decode 0x00000091#32 = some (.addFx64 2 0 0) := by decide

/-- A command write waiting at a ready unit. -/
def ready : State := { setup [(0, 2000000)] false with accesses := [.w32 0 0x56#32, .r32 0x004] }

theorem witness_StepRunsTheDecodedInstruction_sync :
    ReadyForCommand ready ∧ ready.schedule = [] ∧ ready.accesses = [.w32 0 0x56#32, .r32 0x004] ∧
      decode 0x56#32 = some (.sqrtFx64 1 0) := by
  unfold ReadyForCommand
  decide

/-- The same command in flight, its engine stopped. -/
def finishing : State :=
  { setup [(0, 2000000)] false with
    flight := some ⟨0x56#32, some 2000000#64, none, none, false, .sqrt ⟨1590631, 1414213, 0, false⟩⟩, schedule := [.fxu] }

theorem witness_StepRunsTheDecodedInstruction_completion :
    finishing.power = .running ∧ finishing.schedule = [.fxu] ∧
      finishing.flight = some ⟨0x56#32, some 2000000#64, none, none, false, .sqrt ⟨1590631, 1414213, 0, false⟩⟩ := by decide
theorem witness_HiddenWorkingAgreesWithAtomicExecution :
    ReadyForCommand ready ∧ ready.accesses = .w32 0 0x56#32 :: [.r32 0x004] ∧ decode 0x56#32 = some (.sqrtFx64 1 0) := by
  unfold ReadyForCommand
  decide

/-- A command just accepted is in flight, its hidden state what acceptance latched. -/
def accepted : State := (setup [(0, 2000000)] false).accept 0x56#32 (.sqrtFx64 1 0)

theorem witness_FlightLatched : accepted.FlightLatched := by
  intro f hf
  have hf' : latch 0x56#32 (.sqrtFx64 1 0) (setup [(0, 2000000)] false) = f := Option.some.inj hf
  subst hf'
  exact ⟨by decide, by decide, .sqrtFx64 1 0, 0, by decide, by decide⟩
theorem witness_EveryCommandInFlightEnds : accepted.FlightLatched ∧ accepted.busy = true :=
  ⟨witness_FlightLatched, by decide⟩
theorem witness_StepKeepsFlightLatched : accepted.FlightLatched ∧ after (step accepted) State.busy = some true :=
  ⟨witness_FlightLatched, by decide⟩

/-- A busy unit at the host's turn, with the given access held and the given one next. -/
def waiting (held : Option Access) (a : Access) : State :=
  { accepted with held := held, schedule := [.host], accesses := [a] }

/-- Clause 1: nothing held, an access that is held now. -/
theorem witness_InterlockHoldsAccesses_held :
    (waiting none (.r64 0x020)).power = .running ∧ (waiting none (.r64 0x020)).busy = true ∧
      (waiting none (.r64 0x020)).held = none ∧ (waiting none (.r64 0x020)).schedule = [.host] ∧
      (waiting none (.r64 0x020)).accesses = [.r64 0x020] ∧ (Access.r64 0x020) ≠ .r32 0x004 := by decide
/-- Clause 2: an access held, a STATUS read behind it (log 12). -/
theorem witness_InterlockHoldsAccesses_behind :
    (waiting (some (.r64 0x020)) (.r32 0x004)).power = .running ∧ (waiting (some (.r64 0x020)) (.r32 0x004)).busy = true ∧
      (waiting (some (.r64 0x020)) (.r32 0x004)).held = some (.r64 0x020) ∧
      (waiting (some (.r64 0x020)) (.r32 0x004)).schedule = [.host] ∧
      (waiting (some (.r64 0x020)) (.r32 0x004)).accesses = [.r32 0x004] := by decide
/-- Clause 3: the unit idle again, the access still held. -/
theorem witness_InterlockHoldsAccesses_released :
    ({ ready with held := some (.r64 0x020) } : State).power = .running ∧
      ({ ready with held := some (.r64 0x020) } : State).busy = false ∧
      ({ ready with held := some (.r64 0x020) } : State).held = some (.r64 0x020) := by decide
theorem witness_StatusReadWhileBusyShowsBusy :
    ({ accepted with schedule := [.host], accesses := [.r32 0x004] } : State).busy = true ∧
      ({ accepted with schedule := [.host], accesses := [.r32 0x004] } : State).held = none := by decide
theorem witness_NoEffectBeforeCompletion : accepted.busy = true ∧ after (step accepted) State.busy = some true := by decide
/-- A dropped command changes STATUS.DROP only; a data register is still written by the host. -/
theorem witness_NoCommandRunsAfterAFault :
    afterDivz.status.err = true ∧ afterDivz.flight = none ∧
      after (step { afterDivz with accesses := [.w32 0 0x91#32] }) State.statusWord = some 0x214#32 ∧
      after (step { afterDivz with accesses := [.w64 0x058 5#64] }) (fun t => t.x[(7 : RegId)]) = some 5#64 := by decide

/-- The window's clauses at their boundary offsets. -/
theorem witness_AccessesHaveNoOtherEffect :
    Reserved 0x010 ∧ Reserved 0x01C ∧ Reserved 0x060 ∧ Reserved 0x0FC ∧
      InDataRegisters 0x020 ∧ InDataRegisters 0x05C ∧ ¬ InDataRegisters 0x01F ∧ ¬ InDataRegisters 0x060 ∧
      after (performAccess true (.w32 0x05C 5#32) (setup [] false)) (fun t => t.x[(7 : RegId)]) = some 0x0000000500000000#64 ∧
      after (performAccess true (.w64 0x020 5#64) (setup [] false)) (fun t => t.x[(0 : RegId)]) = some 5#64 ∧
      after (performAccess true (.w64 0x022 5#64) (setup [] false)) (fun t => t.x[(0 : RegId)]) = some 0#64 := by
  unfold Reserved InDataRegisters
  decide
theorem witness_ReservedOffsetsReadZeroIgnoreWrites :
    Reserved 0x01C ∧ (0x01C : Offset).val % 4 = 0 ∧ Reserved 0x060 ∧ (0x060 : Offset).val % 4 = 0 := by
  unfold Reserved
  decide
theorem witness_RegisterHalvesAndBytes :
    (lowOffset 7).val ≤ (0x05F : Offset).val ∧ (0x05F : Offset).val < (lowOffset 7).val + 8 ∧ (0x00C : Offset).val % 4 = 0 := by
  decide
theorem witness_RejectedAccessesChangeNothing :
    (Access.w64 0x000 5#64).accepted = false ∧ (Access.w32 0x022 5#32).accepted = false ∧ (Access.w8 0x000 1#8).accepted = false ∧
      (Access.w64 0x018 5#64).accepted = false ∧ (Access.r64 0x058).accepted = true ∧ (Access.r64 0x060).accepted = false := by
  decide

/-- A STATUS write and a CTRL write that deassert the line, and a command that asserts it. -/
theorem witness_InterruptLineFollowsStatusAndEnables :
    (0x6#32).getLsbD 1 = true ∧ (0x6#32).getLsbD 2 = true ∧ (0x1#32).getLsbD 1 = false ∧ (0x1#32).getLsbD 2 = false ∧
      after (exec (.scale 0 6) { setup [] false with ctrl := ⟨false, true, false⟩ }) State.irq = some true ∧
      after (exec (.scale 0 19) { setup [] false with ctrl := ⟨false, false, true⟩ }) State.irq = some true := by decide
theorem witness_ResetGivesEveryRegisterItsValue :
    (accepted.held = none ∨ accepted.busy = true) ∧
      ({ accepted with schedule := [.assertReset, .releaseReset] } : State).schedule = [.assertReset, .releaseReset] := by decide
theorem witness_NothingHappensDuringReset :
    (State.reset.toReset .inReset).power = .inReset ∧
      after (step { State.reset.toReset .inReset with accesses := [.w32 0 0x17#32] }) (fun t => t.accesses) =
        some [.w32 0 0x17#32] := by decide
theorem witness_StepKeepsCauseMatchesErr : afterDivz.CauseMatchesErr ∧ after (step afterDivz) (fun t => t.status.err) = some true := by
  unfold State.CauseMatchesErr
  decide
theorem witness_StepKeepsHeldAndResetState :
    ({ accepted with held := some (.r64 0x020) } : State).HeldIsHoldable ∧ (State.reset.toReset .inReset).ResetIsQuiet := by
  refine ⟨fun a ha => ?_, fun _ => by decide⟩
  have ha' : Access.r64 0x020 = a := Option.some.inj ha
  subst ha'
  decide
theorem witness_StepStopsOnlyWithoutPower :
    ({ State.reset.losePower with accesses := [.r32 0x004] } : State).StopsNext := by
  refine ⟨by decide, by decide, .inl (by decide)⟩

end Sys2Proof.Tests
end

section
/-! PROOFS. The model's integer functions against their definitions (00_scope.md R9). -/

namespace Sys2Proof.Claims

open Sys2Proof.Machine

/-- `InRange` is what the library's bounds of `Int.bmod` say for the modulus `2 ^ n`. Width 0 is out: `0 - 1` is 0 on `Nat`, so
`InRange 0 (-1)` holds. -/
theorem inRange_iff_bmod_bounds {n : Nat} (hn : 0 < n) (w : Int) :
    InRange n w ↔ -(((2 ^ n : Nat) : Int) / 2) ≤ w ∧ w < (((2 ^ n : Nat) : Int) + 1) / 2 := by
  obtain ⟨k, rfl⟩ := Nat.exists_eq_add_one.2 hn
  have hpow : ((2 ^ (k + 1) : Nat) : Int) = 2 * 2 ^ k := by push_cast; ring
  rw [InRange, hpow, Nat.add_sub_cancel]
  omega

/-- R9: `wrap_N(v)` is the one integer in range that is congruent to v modulo 2^N. -/
theorem isWrap_iff_eq_wrap {n : Nat} (hn : 0 < n) (v w : Int) : IsWrap n v w ↔ w = wrap n v := by
  have hcast : ((2 ^ n : Nat) : Int) = 2 ^ n := by simp
  rw [eq_comm, wrap, Int.bmod_eq_iff (Nat.two_pow_pos n), IsWrap, inRange_iff_bmod_bounds hn, hcast, and_assoc,
    dvd_sub_comm]

theorem fits_iff_inRange (n : Nat) (v : Int) : fits n v = true ↔ InRange n v := decide_eq_true_iff

/-- An integer is its sign times its magnitude, and the library gives both for a truncated quotient. Its sign lemma answers 0 where
|v| < |d|, and there the magnitude is 0 too. -/
theorem tdiv_eq_towardZero (v d : Int) : tdiv v d = towardZero v d := by
  have habs : (Int.tdiv v d).natAbs = v.natAbs / d.natAbs := Int.natAbs_tdiv v d
  rw [tdiv, towardZero, ← Int.sign_mul_natAbs (Int.tdiv v d), habs, Int.sign_tdiv, Int.sign_mul]
  split
  case isTrue hlt => simp [Nat.div_eq_of_lt hlt]
  case isFalse => rfl

end Sys2Proof.Claims

namespace Sys2Proof.Proofs

open Sys2Proof.Machine Sys2Proof.Claims

/-- Settles O23: R9's definitions of `wrap`, `fits` and `tdiv`, each by its own lemma. -/
theorem integerFunctionsMeetTheirDefinitions : Obligations.IntegerFunctionsMeetTheirDefinitions := by
  intro n v hn
  exact ⟨isWrap_iff_eq_wrap hn v, fits_iff_inRange n v, fun d _ => tdiv_eq_towardZero v d⟩

end Sys2Proof.Proofs
end

section
/-! PROOFS. STATUS.CAUSE is 0 exactly while ERR = 0: each thing a step can do keeps it so (10_state.md R26, 60_exceptions.md
R201). The invariant speaks of STATUS only, so that a change of anything else keeps it as it stands. -/

namespace Sys2Proof.Machine

/-- A fault entry records a cause together with ERR (R207). -/
theorem State.takeFault_causeMatchesErr (s : State) {c : Cause} (hc : c ≠ .none) (w : Word32) :
    (s.takeFault c w).CauseMatchesErr := by
  simp [State.CauseMatchesErr, hc]

/-- Bit 2 of a STATUS write clears ERR and CAUSE together (R27, R210). -/
theorem State.writeStatus_causeMatchesErr {s : State} (h : s.CauseMatchesErr) (v : Word32) :
    (s.writeStatus v).CauseMatchesErr := by
  rw [State.CauseMatchesErr, State.writeStatus_status]
  cases v.getLsbD 2 with
  | true => simp
  | false => simpa [State.CauseMatchesErr] using h

/-- A completion leaves ERR and CAUSE (R211). -/
theorem EndsCommand.causeMatchesErr {rd : RegId} {w : Word32} {s t : State} (he : EndsCommand rd w s t)
    (h : s.CauseMatchesErr) : t.CauseMatchesErr := by
  obtain ⟨r, ov, rfl⟩ | ⟨c, hc, rfl⟩ := he
  · exact h
  · exact s.takeFault_causeMatchesErr hc w

theorem Presented.causeMatchesErr {w : Word32} {s t : State} (hp : Presented w s t) (h : s.CauseMatchesErr) :
    t.CauseMatchesErr := by
  cases hp with
  | dropped _ eq => subst eq; exact h
  | illegal _ _ eq => subst eq; exact s.takeFault_causeMatchesErr (by decide) w
  | accepted i _ _ eq => subst eq; exact h
  | executed i _ _ run => exact (exec_next run).causeMatchesErr h

theorem Wrote32.causeMatchesErr {off : Offset} {v : Word32} {s t : State} (hw : Wrote32 off v s t)
    (h : s.CauseMatchesErr) : t.CauseMatchesErr := by
  cases hw with
  | status _ eq => subst eq; exact State.writeStatus_causeMatchesErr h v
  | ctrl _ eq => subst eq; exact h
  | half _ eq => subst eq; exact h
  | ignored _ _ _ eq => subst eq; exact h

theorem Performed.causeMatchesErr {a : Access} {s t : State} (hp : Performed a s t) (h : s.CauseMatchesErr) :
    t.CauseMatchesErr := by
  cases hp with
  | read r _ eq => subst eq; exact h
  | rejectedRead _ eq => subst eq; exact h
  | rejectedWrite _ eq => subst eq; exact h
  | command w _ pre => exact pre.causeMatchesErr h
  | write32 off v _ _ _ eq => subst eq; exact (write32_wrote off v _).causeMatchesErr h
  | write64 off v _ _ eq => subst eq; exact h

/-- The inversion of `finish`. -/
theorem finish_next {f : Flight} {s t : State} (h : finish f s = .next t) : ∃ rd w, EndsCommand rd w s t := by
  obtain ⟨t', ht, he⟩ := finish_ends f s
  rw [h] at ht
  cases ht
  exact he

theorem FxuMoved.causeMatchesErr {s t : State} (hm : FxuMoved s t) (h : s.CauseMatchesErr) : t.CauseMatchesErr := by
  cases hm with
  | idle _ eq => subst eq; exact h
  | shift f e _ _ _ eq => subst eq; exact h
  | finished f _ _ run =>
    obtain ⟨rd, w, he⟩ := finish_next run
    exact he.causeMatchesErr h

theorem Stepped.causeMatchesErr {s t : State} (hs : Stepped s t) (h : s.CauseMatchesErr) : t.CauseMatchesErr := by
  cases hs with
  | released a _ _ _ eff => exact eff.causeMatchesErr h
  | performed ts a rest _ _ _ _ eff => exact eff.causeMatchesErr h
  | held ts a rest _ _ _ _ eq => subst eq; exact h
  | fxu ts _ eff => exact eff.causeMatchesErr h
  | reset ts p _ eq => subst eq; simp [State.CauseMatchesErr, Status.reset]
  | powerDown ts eq => subst eq; exact h
  | passed ts eq => subst eq; exact h

end Sys2Proof.Machine

namespace Sys2Proof.Proofs

open Sys2Proof.Machine

/-- Settles O51: the inversion of `step`, and each of its cases keeps the invariant. -/
theorem stepKeepsCauseMatchesErr : Obligations.StepKeepsCauseMatchesErr :=
  fun _ _ h hstep => (step_next hstep).causeMatchesErr h

end Sys2Proof.Proofs
end

section
/-! PROOFS. A command in flight holds what its acceptance latched: each thing a step can do keeps it so (10_state.md R32, 20_memory.md
R60, 60_exceptions.md R209). -/

namespace Sys2Proof.Machine

/-! ### What acceptance latches, some FXU turns later -/

/-- The hidden state `k` FXU turns after the acceptance of the word `w` in `s`. -/
def latchAfter (k : Nat) (w : Word32) (i : Instr) (s : State) : Flight :=
  { latch w i s with work := (startWork i s).after k }

theorem State.flightLatched_iff (s : State) :
    s.FlightLatched ↔ ∀ f, s.flight = some f →
      s.power = .running ∧ s.status.err = false ∧
        ∃ i k, decode f.word = some i ∧ f = latchAfter k f.word i s.idle := Iff.rfl

/-- The unit an acceptance starts depends on the registers, CTRL and the command in flight only. -/
theorem startWork_congr {s t : State} (hx : t.x = s.x) (hc : t.ctrl = s.ctrl) (hf : t.flight = s.flight) (i : Instr) :
    startWork i t = startWork i s := by
  have hsrc (l : Flight → Option Word64) (r : RegId) : t.source l r = s.source l r := by simp [State.source, hx, hf]
  have hA (f : Fmt) (r : RegId) : t.opA f r = s.opA f r := congrArg (Fmt.view f) (hsrc _ r)
  have hB (f : Fmt) (r : RegId) : t.opB f r = s.opB f r := congrArg (Fmt.view f) (hsrc _ r)
  have hiw : t.iw = s.iw := by simp [State.iw, hc, hf]
  cases i <;> simp only [startWork, hA, hB, hiw]

theorem latchAfter_congr {s t : State} (hx : t.x = s.x) (hc : t.ctrl = s.ctrl) (hf : t.flight = s.flight) (k : Nat)
    (w : Word32) (i : Instr) : latchAfter k w i t = latchAfter k w i s := by
  simp only [latchAfter, latch, State.readX_eq, hx, hc, startWork_congr hx hc hf]

theorem latchAfter_zero (w : Word32) (i : Instr) (s : State) : latchAfter 0 w i s = latch w i s := by
  have hzero : ∀ u : Work, u.after 0 = u := by intro u; cases u <;> rfl
  rw [latchAfter, hzero]
  rfl

theorem Engine.run_succ_eq_advance (k : Nat) (e : Engine) : Engine.run (k + 1) e = (Engine.run k e).advance := by
  induction k generalizing e with
  | zero => rfl
  | succ k ih => exact ih e.advance

/-- One more FXU turn of a running square-root engine is one shift of its `bit` (R170). -/
theorem Work.after_succ_of_sqrt {u : Work} {k : Nat} {e : Engine} (h : u.after k = .sqrt e) :
    u.after (k + 1) = .sqrt e.advance := by
  cases u with
  | direct => cases h
  | muldiv wide => cases h
  | sqrt e0 =>
    obtain rfl : Engine.run k e0 = e := Work.sqrt.inj h
    exact congrArg Work.sqrt (Engine.run_succ_eq_advance k e0)

theorem latchAfter_succ_of_sqrt {k : Nat} {w : Word32} {i : Instr} {s : State} {e : Engine}
    (h : (latchAfter k w i s).work = .sqrt e) :
    latchAfter (k + 1) w i s = { latchAfter k w i s with work := .sqrt e.advance } := by
  rw [latchAfter, Work.after_succ_of_sqrt h]
  rfl

/-! ### The invariant under the state's operations -/

/-- An idle unit satisfies the invariant: nothing is in flight. -/
theorem State.flightLatched_of_idle {s : State} (h : s.flight = none) : s.FlightLatched := by
  intro f hf
  rw [h] at hf
  cases hf

/-- The invariant speaks of the registers, STATUS, CTRL, the command in flight and the power only. -/
theorem State.FlightLatched.congr {s t : State} (h : s.FlightLatched) (hx : t.x = s.x) (hst : t.status = s.status)
    (hc : t.ctrl = s.ctrl) (hf : t.flight = s.flight) (hp : t.power = s.power) : t.FlightLatched := by
  intro f hft
  obtain ⟨hpow, herr, i, k, hdec, hlatch⟩ := h f (hf ▸ hft)
  have hsame : latchAfter k f.word i t.idle = latchAfter k f.word i s.idle :=
    latchAfter_congr (s := s.idle) (t := t.idle) hx hc rfl k f.word i
  exact ⟨hp.trans hpow, hst ▸ herr, i, k, hdec, hlatch.trans hsame.symm⟩

/-- Acceptance by an idle running unit with ERR = 0 latches what the invariant asks for, no FXU turn having passed (R209). -/
theorem State.accept_flightLatched {s : State} {w : Word32} {i : Instr} (hpow : s.power = .running)
    (herr : s.status.err = false) (hidle : s.flight = none) (hdec : decode w = some i) :
    (s.accept w i).FlightLatched := by
  intro f hf
  obtain rfl : latch w i s = f := Option.some.inj hf
  have hsame : latchAfter 0 w i (s.accept w i).idle = latchAfter 0 w i s :=
    latchAfter_congr (s := s) (t := (s.accept w i).idle) rfl rfl hidle.symm 0 w i
  exact ⟨hpow, herr, i, 0, hdec, (latchAfter_zero w i s).symm.trans hsame.symm⟩

/-- A shift of the square-root engine is one FXU turn more. -/
theorem State.FlightLatched.shift {s : State} {f : Flight} {e : Engine} (h : s.FlightLatched) (hfl : s.flight = some f)
    (hwk : f.work = .sqrt e) :
    State.FlightLatched { s with flight := some { f with work := .sqrt e.advance } } := by
  intro f' hf'
  obtain rfl : { f with work := .sqrt e.advance } = f' := Option.some.inj hf'
  obtain ⟨hpow, herr, i, k, hdec, hlatch⟩ := s.flightLatched_iff.1 h f hfl
  have hturn : latchAfter (k + 1) f.word i s.idle = { f with work := .sqrt e.advance } := by
    rw [latchAfter_succ_of_sqrt (hlatch ▸ hwk), ← hlatch]
  exact ⟨hpow, herr, i, k + 1, hdec, hturn.symm⟩

/-! ### The invariant under what a step can do -/

theorem Wrote32.flight {off : Offset} {v : Word32} {s t : State} (hw : Wrote32 off v s t) : t.flight = s.flight := by
  cases hw with
  | status _ eq => subst eq; exact s.writeStatus_flight v
  | ctrl _ eq => subst eq; rfl
  | half _ eq => subst eq; rfl
  | ignored _ _ _ eq => subst eq; rfl

theorem Presented.flightLatched {w : Word32} {s t : State} (hp : Presented w s t) (hpow : s.power = .running)
    (hidle : s.flight = none) : t.FlightLatched := by
  cases hp with
  | dropped _ eq => subst eq; exact State.flightLatched_of_idle hidle
  | illegal _ _ eq => subst eq; exact State.flightLatched_of_idle rfl
  | accepted i err dec eq => subst eq; exact State.accept_flightLatched hpow err hidle dec
  | executed i _ _ run => exact State.flightLatched_of_idle (exec_next run).flight

/-- While a command is in flight the interlock lets only a STATUS read through (R60), and that changes no register. -/
theorem Performed.flightLatched {a : Access} {s t : State} (hp : Performed a s t) (h : s.FlightLatched)
    (hpow : s.power = .running) (free : s.flight = none ∨ a.isStatusRead = true) : t.FlightLatched := by
  cases hp with
  | read r _ eq => subst eq; exact h.congr rfl rfl rfl rfl rfl
  | rejectedRead _ eq => subst eq; exact h.congr rfl rfl rfl rfl rfl
  | rejectedWrite _ eq => subst eq; exact h.congr rfl rfl rfl rfl rfl
  | command w cmd pre =>
    subst cmd
    exact pre.flightLatched hpow (free.resolve_right (by simp [Access.isStatusRead]))
  | write32 off v cmd _ _ eq =>
    subst cmd eq
    have hidle : s.flight = none := free.resolve_right (by simp [Access.isStatusRead])
    exact State.flightLatched_of_idle ((write32_wrote off v _).flight.trans hidle)
  | write64 off v cmd _ eq =>
    subst cmd eq
    exact State.flightLatched_of_idle (free.resolve_right (by simp [Access.isStatusRead]))

theorem FxuMoved.flightLatched {s t : State} (hm : FxuMoved s t) (h : s.FlightLatched) : t.FlightLatched := by
  cases hm with
  | idle _ eq => subst eq; exact h
  | shift f e fl wk _ eq => subst eq; exact h.shift fl wk
  | finished f _ _ run =>
    obtain ⟨rd, w, he⟩ := finish_next run
    exact State.flightLatched_of_idle he.flight

theorem Stepped.flightLatched {s t : State} (hs : Stepped s t) (h : s.FlightLatched) : t.FlightLatched := by
  cases hs with
  | released a _ pow fl eff => exact eff.flightLatched (State.flightLatched_of_idle fl) pow (.inl fl)
  | performed ts a rest _ pow _ free eff => exact eff.flightLatched (h.congr rfl rfl rfl rfl rfl) pow free
  | held ts a rest _ _ _ _ eq => subst eq; exact h.congr rfl rfl rfl rfl rfl
  | fxu ts _ eff => exact eff.flightLatched (h.congr rfl rfl rfl rfl rfl)
  | reset ts p _ eq => subst eq; exact State.flightLatched_of_idle rfl
  | powerDown ts eq => subst eq; exact State.flightLatched_of_idle rfl
  | passed ts eq => subst eq; exact h.congr rfl rfl rfl rfl rfl

end Sys2Proof.Machine

namespace Sys2Proof.Proofs

open Sys2Proof.Machine

/-- Settles O52: the inversion of `step`, and each of its cases keeps the invariant. Acceptance starts it with zero FXU turns, a
shift of the engine adds one, and every other change of a register happens with nothing in flight. -/
theorem stepKeepsFlightLatched : Obligations.StepKeepsFlightLatched :=
  fun _ _ h hstep => (step_next hstep).flightLatched h

end Sys2Proof.Proofs
end

section
/-! PROOFS. The frame of a command in bytes of the host window (10_state.md R21, 20_memory.md R51, 60_exceptions.md R200, R207). -/

namespace Sys2Proof.Machine

/-- A completion leaves every data register but its destination (R21, R211). -/
theorem State.complete_x_ne (s : State) {rd q : RegId} (r : Int) (ov : Bool) (h : q ≠ rd) :
    (s.complete rd r ov).x[q] = s.x[q] := s.writeX_x_ne _ h

/-- A 32-bit read outside STATUS and the destination register's eight bytes does not see a completion. -/
theorem State.read32_complete (s : State) {rd : RegId} (r : Int) (ov : Bool) {off : Offset} (h4 : off.val ≠ 0x004)
    (hrd : ¬ (0x020 + 8 * rd.val ≤ off.val ∧ off.val < 0x028 + 8 * rd.val)) :
    (s.complete rd r ov).read32 off = s.read32 off := by
  cases hin : inRegisters off with
  | false => simp [State.read32, State.ctrlWord, h4, hin]
  | true =>
    have hne : registerAt off ≠ rd := by
      rintro rfl
      have hval := registerAt_val hin
      have hbounds := (inRegisters_iff off).1 hin
      omega
    simp only [State.read32, State.ctrlWord, State.readX_eq, State.complete_x_ne s r ov hne, State.complete_ctrl,
      State.complete_errcmd, h4, if_false]

/-- A 32-bit read outside STATUS and ERRCMD does not see a fault entry (R207). -/
theorem State.read32_takeFault (s : State) (c : Cause) (w : Word32) {off : Offset} (h4 : off.val ≠ 0x004)
    (hC : off.val ≠ 0x00C) : (s.takeFault c w).read32 off = s.read32 off := by
  simp [State.read32, State.ctrlWord, h4, hC]

theorem State.windowByte_complete (s : State) {rd : RegId} (r : Int) (ov : Bool) {off : Offset}
    (hstatus : ¬ (0x004 ≤ off.val ∧ off.val < 0x008))
    (hrd : ¬ (0x020 + 8 * rd.val ≤ off.val ∧ off.val < 0x028 + 8 * rd.val)) :
    (s.complete rd r ov).windowByte off = s.windowByte off := by
  rw [State.windowByte, State.read32_complete s r ov (by dsimp only; omega) (by dsimp only; omega)]
  rfl

theorem State.windowByte_takeFault (s : State) (c : Cause) (w : Word32) {off : Offset}
    (hstatus : ¬ (0x004 ≤ off.val ∧ off.val < 0x008)) (herrcmd : ¬ (0x00C ≤ off.val ∧ off.val < 0x010)) :
    (s.takeFault c w).windowByte off = s.windowByte off := by
  rw [State.windowByte, State.read32_takeFault s c w (by dsimp only; omega) (by dsimp only; omega)]
  rfl

end Sys2Proof.Machine

namespace Sys2Proof.Proofs

open Sys2Proof.Machine

/-- Settles O25: a command ends in a completion, seen in STATUS and `rd` only, or in a fault entry, seen in STATUS and ERRCMD
only; ERR afterwards tells which of the two where the statement asks for it. -/
theorem commandsChangeNoOtherWindowByte : Obligations.CommandsChangeNoOtherWindowByte := by
  intro i s t off hexec hstatus
  obtain ⟨r, ov, rfl⟩ | ⟨c, -, rfl⟩ := exec_next hexec
  · have hframe := s.windowByte_complete (rd := i.dest) r ov hstatus
    refine ⟨fun _ hrd => hframe hrd, fun hs ht _ => ?_, fun _ hrd => hframe hrd⟩
    exact absurd (hs.symm.trans ht) (by decide)
  · have hframe := s.windowByte_takeFault c (encode i) hstatus
    exact ⟨fun herrcmd _ => hframe herrcmd, fun _ _ herrcmd => hframe herrcmd, fun ht _ => absurd ht (by simp)⟩

end Sys2Proof.Proofs
end

section
/-! PROOFS. Two idle units whose registers agree in bits 31:0 end an FX32 command alike (10_state.md R22, R23, R28). -/

namespace Sys2Proof.Machine

open Sys2Proof.Claims

/-- Two executions of one command end alike: both complete with the same result and overflow indication, or both fault with the
same cause. -/
inductive EndAlike (rd : RegId) (w : Word32) (s s' : State) : Result → Result → Prop where
  | completed (r : Int) (ov : Bool) : EndAlike rd w s s' (.next (s.complete rd r ov)) (.next (s'.complete rd r ov))
  | faulted (c : Cause) : EndAlike rd w s s' (.next (s.takeFault c w)) (.next (s'.takeFault c w))

/-- The FX32 view of a register is its bits 31:0 (R22). -/
theorem view_fx32_congr {p q : Word64} (h : p.setWidth 32 = q.setWidth 32) : Fmt.view .fx32 p = Fmt.view .fx32 q := by
  simpa [Fmt.view, BitVec.setWidth_eq_extractLsb'] using congrArg BitVec.toInt h

/-- An FX32 command computes from the FX32 views of its operands alone. -/
theorem exec_fx32_endAlike {i : Instr} {s s' : State} (hi : IsFx32 i) (hs : s.flight = none) (hs' : s'.flight = none)
    (hlow : ∀ r : RegId, s'.x[r].setWidth 32 = s.x[r].setWidth 32) :
    EndAlike i.dest (encode i) s s' (exec i s) (exec i s') := by
  have hA (r : RegId) : s'.opA .fx32 r = s.opA .fx32 r := by
    rw [State.opA_of_idle hs, State.opA_of_idle hs', view_fx32_congr (hlow r)]
  have hB (r : RegId) : s'.opB .fx32 r = s.opB .fx32 r := by
    rw [State.opB_of_idle hs, State.opB_of_idle hs', view_fx32_congr (hlow r)]
  have hC (r : RegId) : s'.opC .fx32 r = s.opC .fx32 r := by
    rw [State.opC_of_idle hs, State.opC_of_idle hs', view_fx32_congr (hlow r)]
  have hP (a b : Int) : s'.product .fx32 false a b = s.product .fx32 false a b := by
    simp only [State.product, State.widened_of_idle hs, State.widened_of_idle hs']
  cases i with
  | addFx32 rd rs1 rs2 =>
    simp only [exec, execAddFx32, hA, hB]
    exact .completed ..
  | subFx32 rd rs1 rs2 =>
    simp only [exec, execSubFx32, hA, hB]
    exact .completed ..
  | mulFx32 rd rs1 rs2 =>
    simp only [exec, execMulFx32, State.multiply, hA, hB, hP]
    exact .completed ..
  | divFx32 rd rs1 rs2 =>
    simp only [exec, execDivFx32, State.divide, State.quotient, State.widened_of_idle hs, State.widened_of_idle hs', hA, hB]
    split
    · exact .faulted ..
    · exact .completed ..
  | macFx32 rd rs1 rs2 =>
    simp only [exec, execMacFx32, State.accumulate, hA, hB, hC, hP]
    exact .completed ..
  | sqrtFx32 rd rs1 =>
    simp only [exec, execSqrtFx32, State.root_of_idle hs, State.root_of_idle hs', hA]
    split
    · exact .faulted ..
    · exact .completed ..
  | addFx64 | subFx64 | mulFx64 | divFx64 | macFx64 | sqrtFx64 | scale => exact hi.elim

end Sys2Proof.Machine

namespace Sys2Proof.Proofs

open Sys2Proof.Machine Sys2Proof.Claims

/-- Settles O27: the two executions end alike, so that they write the same result or record the same fault. -/
theorem fx32IgnoresUpperHalvesAndCtrl : Obligations.Fx32IgnoresUpperHalvesAndCtrl := by
  intro i s s' t t' hi hs hs' hlow hstatus herrcmd ht ht'
  have halike := exec_fx32_endAlike hi hs hs' hlow
  rw [ht, ht'] at halike
  cases halike with
  | completed r ov =>
    refine ⟨by simp [hstatus], herrcmd, fun q => ?_, fun _ _ => by simp⟩
    by_cases hq : q = i.dest
    · subst hq; simp
    · rw [State.complete_x_ne s r ov hq, State.complete_x_ne s' r ov hq, hlow q]
  | faulted c => exact ⟨by simp [hstatus], rfl, hlow, fun _ herr => absurd herr (by simp)⟩

end Sys2Proof.Proofs
end

section
/-! PROOFS. STATUS and CTRL in the host window (10_state.md R26 to R28, 60_exceptions.md R201). -/

namespace Sys2Proof.Machine

/-! ### The words a host reads -/

/-- STATUS bit by bit (R26). -/
theorem State.statusWord_getLsbD (s : State) (n : Nat) :
    s.statusWord.getLsbD n =
      match n with
      | 0 => s.busy
      | 1 => s.status.done
      | 2 => s.status.err
      | 3 => s.status.ov
      | 4 => s.status.drop
      | 5 | 6 | 7 => false
      | k + 8 => s.status.cause.code.getLsbD k := by
  -- The library's rule on `++` wants the width as the sum of the fields' widths.
  change BitVec.getLsbD (w := 20 + 4 + 3 + 1 + 1 + 1 + 1 + 1) _ n = _
  simp only [State.statusWord, BitVec.getLsbD_append]
  match n with
  | 0 | 1 | 2 | 3 | 4 | 5 | 6 | 7 => simp
  | k + 8 => simpa using BitVec.lt_of_getLsbD

/-- CTRL bit by bit (R28). -/
theorem State.ctrlWord_getLsbD (s : State) (n : Nat) :
    s.ctrlWord.getLsbD n =
      match n with
      | 0 => s.ctrl.iw64
      | 1 => s.ctrl.doneie
      | 2 => s.ctrl.errie
      | _ + 3 => false := by
  change BitVec.getLsbD (w := 29 + 1 + 1 + 1) _ n = _
  simp only [State.ctrlWord, BitVec.getLsbD_append]
  match n with
  | 0 | 1 | 2 | k + 3 => simp

/-- No two causes share a code (R201). -/
theorem Cause.code_inj (c d : Cause) : c.code = d.code ↔ c = d := by
  cases c <;> cases d <;> decide

/-- CAUSE is STATUS[11:8] (R26). -/
theorem State.statusWord_cause (s : State) : s.statusWord.extractLsb' 8 4 = s.status.cause.code := by
  ext n hn
  rw [BitVec.getElem_extractLsb', Nat.add_comm, s.statusWord_getLsbD]
  exact BitVec.getLsbD_eq_getElem hn

/-- STATUS[7:5] reads as 0 (R26). -/
theorem State.statusWord_reserved (s : State) : s.statusWord.extractLsb' 5 3 = 0#3 := by
  ext n hn
  rw [BitVec.getElem_extractLsb', BitVec.getElem_zero]
  match n with
  | 0 => exact s.statusWord_getLsbD 5
  | 1 => exact s.statusWord_getLsbD 6
  | 2 => exact s.statusWord_getLsbD 7

/-- STATUS[31:12] reads as 0 (R26). -/
theorem State.statusWord_high (s : State) : s.statusWord.extractLsb' 12 20 = 0#20 := by
  ext n hn
  rw [BitVec.getElem_extractLsb', Nat.add_comm]
  exact (s.statusWord_getLsbD (n + 4 + 8)).trans (by simp)

/-- CTRL[31:3] reads as 0 (R28). -/
theorem State.ctrlWord_high (s : State) : s.ctrlWord.extractLsb' 3 29 = 0#29 := by
  ext n hn
  rw [BitVec.getElem_extractLsb', Nat.add_comm, s.ctrlWord_getLsbD]
  simp

/-! ### Writes -/

/-- A write of `b`'s bit as 1 clears it, and as 0 leaves it (R27). -/
theorem and_not_eq_ite (b bit : Bool) : (b && !bit) = if bit = true then false else b := by
  cases bit <;> simp

/-- A STATUS write changes STATUS only (R27). -/
theorem State.writeStatus_eq (s : State) (v : Word32) : s.writeStatus v = { s with status := (s.writeStatus v).status } := by
  unfold State.writeStatus
  split <;> rfl

/-- What a CTRL write stored is read back with the reserved bits 0 (R28). -/
theorem State.writeCtrl_ctrlWord (s : State) (v : Word32) : (s.writeCtrl v).ctrlWord = v &&& 7#32 := by
  apply BitVec.eq_of_getLsbD_eq
  intro n hn
  rw [State.ctrlWord_getLsbD, BitVec.getLsbD_and]
  match n with
  | 0 | 1 | 2 => simp
  | k + 3 =>
    have hseven : (7#32).getLsbD (k + 3) = false := by
      rw [BitVec.getLsbD_ofNat, show 7 = 2 ^ 3 - 1 from rfl, Nat.testBit_two_pow_sub_one]
      simp
    rw [hseven, Bool.and_false]

end Sys2Proof.Machine

namespace Sys2Proof.Proofs

open Sys2Proof.Machine

/-- Settles O39: the read at each offset is the register's word, whose bits are said once above; the causes have distinct codes. -/
theorem statusAndCtrlReadLayout : Obligations.StatusAndCtrlReadLayout := by
  intro s
  have hcause (c : Cause) : s.status.cause = c ↔ s.statusWord.extractLsb' 8 4 = c.code := by
    rw [s.statusWord_cause, Cause.code_inj]
  exact ⟨⟨s.statusWord_getLsbD 0, s.statusWord_getLsbD 1, s.statusWord_getLsbD 2, s.statusWord_getLsbD 3,
      s.statusWord_getLsbD 4, s.statusWord_reserved, s.statusWord_high, hcause .none, hcause .illegal, hcause .divz,
      hcause .sqrtNeg, hcause .scaleRange, hcause .sqrtOvf⟩,
    s.ctrlWord_getLsbD 0, s.ctrlWord_getLsbD 1, s.ctrlWord_getLsbD 2, s.ctrlWord_high⟩

/-- Settles O40: the write is `writeStatus`, which sets each field as R27 says. -/
theorem statusWriteClearsExactlyTheOnes : Obligations.StatusWriteClearsExactlyTheOnes := by
  intro s v atomic
  have hwrite : performAccess atomic (.w32 0x004 v) s = .next ((s.answer .written).writeStatus v) := rfl
  refine ⟨((s.answer .written).writeStatus v).status, hwrite.trans (congrArg _ (State.writeStatus_eq ..)), ?_⟩
  rw [State.writeStatus_status]
  exact ⟨and_not_eq_ite .., and_not_eq_ite .., and_not_eq_ite .., and_not_eq_ite .., rfl⟩

/-- Settles O41: the write is `writeCtrl`, read back with the reserved bits 0. -/
theorem ctrlWriteSetsDefinedBits : Obligations.CtrlWriteSetsDefinedBits := by
  intro s v atomic
  exact ⟨(s.writeCtrl v).ctrl, rfl, s.writeCtrl_ctrlWord v⟩

end Sys2Proof.Proofs
end

section
/-! PROOFS. Reset (10_state.md R34, 70_reset_and_hazards.md R240, R241). -/

namespace Sys2Proof.Machine

/-- While a command is in flight, or where nothing is held, no access is just being let go (R60). -/
theorem releasedAccess_eq_none {s : State} (h : s.held = none ∨ s.busy = true) : releasedAccess s = none := by
  obtain hheld | hbusy := h
  · simp [releasedAccess, hheld]
  · simp [releasedAccess, hbusy]

/-- A scheduled turn is taken where no access is just being let go. -/
theorem step_scheduled {s : State} {turn : Turn} {ts : List Turn} (h : s.held = none ∨ s.busy = true)
    (hsched : s.schedule = turn :: ts) : step s = takeTurn false turn { s with schedule := ts } := by
  simp only [step, releasedAccess_eq_none h, hsched]

/-- Asserting and releasing reset in the next two turns leaves the state of R34, the host's coming accesses kept (R240). -/
theorem run_two_reset {s : State} {ts : List Turn} (h : s.held = none ∨ s.busy = true)
    (hsched : s.schedule = .assertReset :: .releaseReset :: ts) :
    Sys2Proof.core.run 2 s = .next (({ s with schedule := ts } : State).toReset .running) := by
  have hassert : step s = .next (({ s with schedule := .releaseReset :: ts } : State).toReset .inReset) :=
    step_scheduled h hsched
  have hrelease : step (({ s with schedule := .releaseReset :: ts } : State).toReset .inReset) =
      .next (({ s with schedule := ts } : State).toReset .running) := step_scheduled (turn := .releaseReset) (.inl rfl) rfl
  simp only [Host.Core.run, Sys2Proof.core, hassert, hrelease]

/-- Every data register is 0 after reset (R34). -/
theorem State.toReset_x_zero (s : State) (p : Power) (r : RegId) : (s.toReset p).x[r] = 0#64 := by
  simp

/-- STATUS reads as 0 after reset (R34). -/
theorem State.toReset_statusWord (s : State) (p : Power) : (s.toReset p).statusWord = 0#32 := by
  simp [State.statusWord, State.busy, Status.reset, Cause.code]

/-- CTRL reads as 0 after reset (R34). -/
theorem State.toReset_ctrlWord (s : State) (p : Power) : (s.toReset p).ctrlWord = 0#32 := by
  simp [State.ctrlWord, Ctrl.reset]

end Sys2Proof.Machine

namespace Sys2Proof.Proofs

open Sys2Proof.Machine

/-- Settles O48: the two turns leave a `toReset` state, whose registers and those of `State.reset` are R34's constants. -/
theorem resetGivesEveryRegisterItsValue : Obligations.ResetGivesEveryRegisterItsValue := by
  refine ⟨fun s ts h hsched => ?_, by decide, rfl, rfl, rfl, rfl, rfl⟩
  exact ⟨_, run_two_reset h hsched, State.toReset_x_zero _ _, State.toReset_statusWord _ _, State.toReset_ctrlWord _ _, rfl,
    rfl, rfl, rfl, rfl, rfl⟩

/-- Settles O50: ERR and CAUSE are clear, nothing is in flight or held, and reset is not asserted. -/
theorem resetStateIsSound : Obligations.ResetStateIsSound := by
  have hcause : State.reset.CauseMatchesErr := by simp [State.CauseMatchesErr, State.reset, Status.reset]
  have hflight : State.reset.FlightLatched := State.flightLatched_of_idle rfl
  have hheld : State.reset.HeldIsHoldable := fun _ h => nomatch h
  have hquiet : State.reset.ResetIsQuiet := fun h => nomatch h
  exact ⟨hcause, hflight, hheld, hquiet⟩

end Sys2Proof.Proofs
end

section
/-! PROOFS. The host window: what an access of each kind does, said once (20_memory.md R51 to R58). -/

namespace Sys2Proof.Machine

open Sys2Proof.Claims

/-! ### Register numbers and halves (R51) -/

@[simp] theorem lowOffset_val (r : RegId) : (lowOffset r).val = 0x020 + 8 * r.val := rfl
@[simp] theorem highOffset_val (r : RegId) : (highOffset r).val = 0x024 + 8 * r.val := rfl

@[simp] theorem registerAt_lowOffset (r : RegId) : registerAt (lowOffset r) = r := by
  apply Fin.ext
  simp only [registerAt, lowOffset_val]
  omega

@[simp] theorem registerAt_highOffset (r : RegId) : registerAt (highOffset r) = r := by
  apply Fin.ext
  simp only [registerAt, highOffset_val]
  omega

@[simp] theorem isLowHalf_lowOffset (r : RegId) : isLowHalf (lowOffset r) = true := by
  simp [isLowHalf, Nat.add_mod]

@[simp] theorem isLowHalf_highOffset (r : RegId) : isLowHalf (highOffset r) = false := by
  simp [isLowHalf, Nat.add_mod]

theorem inRegisters_lowOffset (r : RegId) : inRegisters (lowOffset r) = true := by
  rw [inRegisters_iff, lowOffset_val]
  omega

theorem inRegisters_highOffset (r : RegId) : inRegisters (highOffset r) = true := by
  rw [inRegisters_iff, highOffset_val]
  omega

theorem inRegisters_of_reserved {off : Offset} (h : Reserved off) : inRegisters off = false := by
  rw [Bool.eq_false_iff, Ne, inRegisters_iff]
  unfold Reserved at h
  omega

/-- The whole data registers are at the multiples of 8 in the data registers' part of the window (R51). -/
theorem exists_lowOffset_iff (off : Offset) : (∃ r, off = lowOffset r) ↔ inRegisters off = true ∧ off.val % 8 = 0 := by
  constructor
  · rintro ⟨r, rfl⟩
    exact ⟨inRegisters_lowOffset r, beq_iff_eq.1 (isLowHalf_lowOffset r)⟩
  · intro ⟨hin, h8⟩
    have hval := registerAt_val hin
    obtain ⟨hlo, -⟩ := (inRegisters_iff off).1 hin
    refine ⟨registerAt off, Fin.ext ?_⟩
    rw [lowOffset_val]
    omega

/-! ### Which accesses are accepted (R53), and which one is never held (R60) -/

theorem Access.r32_accepted_iff {off : Offset} : (Access.r32 off).accepted = true ↔ off.val % 4 = 0 := beq_iff_eq

theorem Access.w32_accepted_iff {off : Offset} {v : Word32} : (Access.w32 off v).accepted = true ↔ off.val % 4 = 0 :=
  beq_iff_eq

theorem Access.r64_accepted_iff {off : Offset} : (Access.r64 off).accepted = true ↔ ∃ r, off = lowOffset r := by
  simp [Access.accepted, exists_lowOffset_iff]

theorem Access.w64_accepted_iff {off : Offset} {u : Word64} :
    (Access.w64 off u).accepted = true ↔ ∃ r, off = lowOffset r := by
  simp [Access.accepted, exists_lowOffset_iff]

theorem Access.isStatusRead_iff (a : Access) : a.isStatusRead = true ↔ a = .r32 0x004 := by
  cases a with
  | r32 off => simp [Access.isStatusRead, Fin.ext_iff]
  | r8 | r16 | r64 | w8 | w16 | w32 | w64 => simp [Access.isStatusRead]

/-! ### 32-bit reads (R51, R52) -/

theorem performAccess_r32 (atomic : Bool) {off : Offset} (h : off.val % 4 = 0) (s : State) :
    performAccess atomic (.r32 off) s = .next (s.answer (.data32 (s.read32 off))) := by
  simp only [performAccess, Access.r32_accepted_iff.2 h, if_true]

theorem State.read32_register (s : State) {off : Offset} (h : inRegisters off = true) :
    s.read32 off =
      if isLowHalf off then (s.readX (registerAt off)).extractLsb' 0 32 else (s.readX (registerAt off)).extractLsb' 32 32 := by
  obtain ⟨hlo, -⟩ := (inRegisters_iff off).1 h
  have h4 : off.val ≠ 0x004 := by omega
  have h8 : off.val ≠ 0x008 := by omega
  have hC : off.val ≠ 0x00C := by omega
  simp only [State.read32, h4, h8, hC, h, if_false, if_true]

theorem State.read32_lowOffset (s : State) (r : RegId) : s.read32 (lowOffset r) = s.x[r].extractLsb' 0 32 := by
  simp [s.read32_register (inRegisters_lowOffset r)]

theorem State.read32_highOffset (s : State) (r : RegId) : s.read32 (highOffset r) = s.x[r].extractLsb' 32 32 := by
  simp [s.read32_register (inRegisters_highOffset r)]

theorem State.read32_reserved (s : State) {off : Offset} (h : Reserved off) : s.read32 off = 0#32 := by
  have hnx : inRegisters off = false := inRegisters_of_reserved h
  unfold Reserved at h
  have h4 : off.val ≠ 0x004 := by omega
  have h8 : off.val ≠ 0x008 := by omega
  have hC : off.val ≠ 0x00C := by omega
  simp only [State.read32, h4, h8, hC, hnx, Bool.false_eq_true, if_false]

/-! ### 32-bit writes of any register but CMD (R51, R58) -/

theorem performAccess_w32 (atomic : Bool) {off : Offset} (v : Word32) (h : off.val % 4 = 0) (h0 : off.val ≠ 0) (s : State) :
    performAccess atomic (.w32 off v) s = .next ((s.answer .written).write32 off v) := by
  simp only [performAccess, Access.w32_accepted_iff.2 h, h0, if_true, if_false]

theorem State.write32_register (s : State) {off : Offset} (v : Word32) (h : inRegisters off = true) :
    s.write32 off v = s.writeHalf off v := by
  obtain ⟨hlo, -⟩ := (inRegisters_iff off).1 h
  have h4 : off.val ≠ 0x004 := by omega
  have h8 : off.val ≠ 0x008 := by omega
  simp only [State.write32, h4, h8, h, if_false, if_true]

/-- ERRCMD and the reserved offsets ignore a write (R29, R52). -/
theorem State.write32_ignored (s : State) {off : Offset} (v : Word32) (h : off.val = 0x00C ∨ Reserved off) :
    s.write32 off v = s := by
  have hnx : inRegisters off = false := by
    obtain hC | hres := h
    · simp [inRegisters, hC]
    · exact inRegisters_of_reserved hres
  unfold Reserved at h
  have h4 : off.val ≠ 0x004 := by omega
  have h8 : off.val ≠ 0x008 := by omega
  simp only [State.write32, h4, h8, hnx, Bool.false_eq_true, if_false]

theorem performAccess_w32_register (atomic : Bool) {off : Offset} (v : Word32) (h : inRegisters off = true)
    (h4 : off.val % 4 = 0) (s : State) :
    performAccess atomic (.w32 off v) s = .next ((s.answer .written).writeHalf off v) := by
  have h0 : off.val ≠ 0 := by
    obtain ⟨hlo, -⟩ := (inRegisters_iff off).1 h
    omega
  rw [performAccess_w32 atomic v h4 h0, State.write32_register _ v h]

/-- A write of the low half keeps bits 63:32 (R56). -/
theorem performAccess_w32_lowOffset (atomic : Bool) (r : RegId) (v : Word32) (s : State) :
    performAccess atomic (.w32 (lowOffset r) v) s =
      .next ((s.answer .written).writeX r (s.x[r].extractLsb' 32 32 ++ v)) := by
  rw [performAccess_w32_register atomic v (inRegisters_lowOffset r) (by rw [lowOffset_val]; omega)]
  simp [State.writeHalf]

/-- A write of the high half keeps bits 31:0 (R56). -/
theorem performAccess_w32_highOffset (atomic : Bool) (r : RegId) (v : Word32) (s : State) :
    performAccess atomic (.w32 (highOffset r) v) s =
      .next ((s.answer .written).writeX r (v ++ s.x[r].extractLsb' 0 32)) := by
  rw [performAccess_w32_register atomic v (inRegisters_highOffset r) (by rw [highOffset_val]; omega)]
  simp [State.writeHalf]

/-! ### 64-bit accesses of a whole data register (R53, R56) -/

theorem performAccess_r64 (atomic : Bool) (r : RegId) (s : State) :
    performAccess atomic (.r64 (lowOffset r)) s = .next (s.answer (.data64 s.x[r])) := by
  simp [performAccess, Access.r64_accepted_iff.2 ⟨r, rfl⟩]

theorem performAccess_w64 (atomic : Bool) (r : RegId) (u : Word64) (s : State) :
    performAccess atomic (.w64 (lowOffset r) u) s = .next ((s.answer .written).writeX r u) := by
  simp [performAccess, Access.w64_accepted_iff.2 ⟨r, rfl⟩]

/-! ### Bytes (R55) -/

/-- A part of a part of a word is a part of the word. -/
theorem extractLsb'_extractLsb' {n : Nat} (x : BitVec n) {lo hi len start : Nat} (h : start + len ≤ hi) :
    (x.extractLsb' lo hi).extractLsb' start len = x.extractLsb' (lo + start) len := by
  ext k hk
  have hin : start + k < hi := by omega
  simp [hin, Nat.add_assoc]

/-- Byte `off - o` of the aligned word at `o` (R55). -/
theorem State.windowByte_of_word (s : State) {off o : Offset} (ho : o.val % 4 = 0) (hlo : o.val ≤ off.val)
    (hhi : off.val < o.val + 4) : s.windowByte off = (s.read32 o).extractLsb' (8 * (off.val - o.val)) 8 := by
  have hword : (⟨off.val / 4 * 4, by omega⟩ : Offset) = o := by
    apply Fin.ext
    dsimp only
    omega
  have hbyte : off.val % 4 = off.val - o.val := by omega
  rw [State.windowByte, hword, hbyte]

/-- Byte `k` of a data register is at its low half's offset plus `k` (R51, R55). -/
theorem State.windowByte_register (s : State) {r : RegId} {off : Offset} (hlo : (lowOffset r).val ≤ off.val)
    (hhi : off.val < (lowOffset r).val + 8) :
    s.windowByte off = s.x[r].extractLsb' (8 * (off.val - (lowOffset r).val)) 8 := by
  have hhigh : (highOffset r).val = (lowOffset r).val + 4 := by rw [highOffset_val, lowOffset_val]; omega
  have halign : (lowOffset r).val % 4 = 0 := by rw [lowOffset_val]; omega
  by_cases hhalf : off.val < (lowOffset r).val + 4
  · rw [s.windowByte_of_word halign hlo hhalf, s.read32_lowOffset, extractLsb'_extractLsb' _ (by omega), Nat.zero_add]
  · rw [s.windowByte_of_word (o := highOffset r) (by omega) (by omega) (by omega), s.read32_highOffset,
      extractLsb'_extractLsb' _ (by omega)]
    congr 1
    omega

/-! ### The window's place (R50) -/

theorem windowOffset_eq_some_iff (addr : Nat) (off : Offset) : windowOffset addr = some off ↔ addr = fxuBase + off.val := by
  unfold windowOffset
  split
  · split
    · rw [Option.some.injEq, Fin.ext_iff]
      dsimp only
      omega
    · simp only [reduceCtorEq, false_iff]
      omega
  · simp only [reduceCtorEq, false_iff]
    omega

end Sys2Proof.Machine

namespace Sys2Proof.Proofs

open Sys2Proof.Machine Sys2Proof.Claims

/-- Settles O42: a write of a half puts the two halves together, and a register's bytes are those of its two aligned words. -/
theorem registerHalvesAndBytes : Obligations.RegisterHalvesAndBytes := by
  intro s r v u atomic
  have hself (w : Word64) : ((s.answer .written).writeX r w).x[r] = w := State.writeX_x_self _ r w
  have hne (w : Word64) (q : RegId) (hq : q ≠ r) : ((s.answer .written).writeX r w).x[q] = s.x[q] :=
    State.writeX_x_ne _ w hq
  refine ⟨⟨_, performAccess_w32_lowOffset atomic r v s, ?_, ?_, hne _⟩,
    ⟨_, performAccess_w32_highOffset atomic r v s, ?_, ?_, hne _⟩,
    ⟨_, performAccess_w64 atomic r u s, hself u, hne u⟩, ?_, ?_, performAccess_r64 atomic r s,
    fun _ => s.windowByte_register, fun _ _ => s.windowByte_of_word⟩
  · rw [hself, BitVec.extractLsb'_append_eq_right]
  · rw [hself, BitVec.extractLsb'_append_eq_left]
  · rw [hself, BitVec.extractLsb'_append_eq_left]
  · rw [hself, BitVec.extractLsb'_append_eq_right]
  · rw [performAccess_r32 atomic (by rw [lowOffset_val]; omega), s.read32_lowOffset]
  · rw [performAccess_r32 atomic (by rw [highOffset_val]; omega), s.read32_highOffset]

/-- Settles O44: an aligned access is accepted, and a reserved offset has no register to read or to write. -/
theorem reservedOffsetsReadZeroIgnoreWrites : Obligations.ReservedOffsetsReadZeroIgnoreWrites := by
  intro s off v atomic hres halign
  have h0 : off.val ≠ 0 := by unfold Reserved at hres; omega
  rw [performAccess_r32 atomic halign, s.read32_reserved hres, performAccess_w32 atomic v halign h0,
    State.write32_ignored _ v (.inr hres)]
  exact ⟨rfl, rfl⟩

/-- Settles O46: the base is 256 times the platform's constant, and the window's test is for the 256 addresses from it. -/
theorem windowIsAt256BytesFromBase : Obligations.WindowIsAt256BytesFromBase :=
  ⟨Nat.mul_mod_right 256 _, windowOffset_eq_some_iff⟩

end Sys2Proof.Proofs
end

section
/-! PROOFS. What an access leaves unchanged (20_memory.md R53, R54, R58; 10_state.md R29, R30). -/

namespace Sys2Proof.Machine

open Sys2Proof.Claims

/-! ### Accesses without an effect (R54, R58) -/

theorem sameFxu_answer (s : State) (r : Reply) : SameFxu s (s.answer r) := ⟨rfl, rfl, rfl, rfl, rfl, rfl, rfl⟩

theorem sameFxu_rejectRead (s : State) : SameFxu s s.rejectRead := ⟨rfl, rfl, rfl, rfl, rfl, rfl, rfl⟩

theorem sameFxu_rejectWrite (s : State) : SameFxu s s.rejectWrite := ⟨rfl, rfl, rfl, rfl, rfl, rfl, rfl⟩

/-- An access that is no accepted 32-bit or 64-bit write changes no FXU state. -/
theorem Performed.sameFxu {a : Access} {s t : State} (hp : Performed a s t)
    (h : ∀ off, IsWriteAt a off → a.accepted = false) : SameFxu s t := by
  cases hp with
  | read r _ eq => subst eq; exact sameFxu_answer s r
  | rejectedRead _ eq => subst eq; exact sameFxu_rejectRead s
  | rejectedWrite _ eq => subst eq; exact sameFxu_rejectWrite s
  | command w cmd _ =>
    have hrej : a.accepted = false := h 0 (.inl ⟨w, cmd⟩)
    subst cmd
    exact absurd hrej (by simp [Access.accepted])
  | write32 off v cmd _ acc _ => exact absurd (h off (.inl ⟨v, cmd⟩)) (by simp [acc])
  | write64 off u cmd acc _ => exact absurd (h off (.inr ⟨u, cmd⟩)) (by simp [acc])

/-- A rejected access is answered by one rejection (R54). -/
theorem performAccess_rejected (atomic : Bool) {a : Access} (h : a.accepted = false) (s : State) :
    performAccess atomic a s = .next s.rejectRead ∨ performAccess atomic a s = .next s.rejectWrite := by
  obtain ⟨t, ht, hp⟩ := performAccess_performs atomic a s
  cases hp with
  | rejectedRead _ eq => subst eq; exact .inl ht
  | rejectedWrite _ eq => subst eq; exact .inr ht
  | command w cmd _ => subst cmd; exact absurd h (by simp [Access.accepted])
  | read _ acc _ => exact absurd h (by simp [acc])
  | write32 _ _ _ _ acc _ => exact absurd h (by simp [acc])
  | write64 _ _ _ acc _ => exact absurd h (by simp [acc])

/-! ### What a write leaves unchanged (R56, R58) -/

/-- Nothing of the FXU but the one data register whose bytes hold the offset has changed. -/
def OnlyRegisterAt (off : Offset) (s t : State) : Prop := SameFxu s { t with x := s.x } ∧ OtherRegistersSame off s t

theorem onlyRegisterAt_of_sameFxu {off : Offset} {s t : State} (h : SameFxu s t) : OnlyRegisterAt off s t := by
  obtain ⟨hx, hrest⟩ := h
  exact ⟨⟨rfl, hrest⟩, fun q _ => by rw [hx]⟩

/-- The register written is the one whose bytes hold the offset (R51). -/
theorem State.writeX_onlyRegisterAt (s : State) {off : Offset} (u : Word64) (h : inRegisters off = true) :
    OnlyRegisterAt off s ((s.answer .written).writeX (registerAt off) u) := by
  refine ⟨sameFxu_answer s .written, fun q hq => State.writeX_x_ne _ u ?_⟩
  rintro rfl
  exact hq (registerAt_val h)

theorem performAccess_w32_ignored {atomic : Bool} {off : Offset} {v : Word32} {s t : State}
    (h : performAccess atomic (.w32 off v) s = .next t) (hoff : off.val = 0x00C ∨ Reserved off ∨ off.val % 4 ≠ 0) :
    SameFxu s t := by
  by_cases h4 : off.val % 4 = 0
  · have hnone : off.val = 0x00C ∨ Reserved off := hoff.imp_right (·.resolve_right (absurd h4))
    have h0 : off.val ≠ 0 := by unfold Reserved at hnone; omega
    rw [performAccess_w32 atomic v h4 h0, State.write32_ignored _ v hnone] at h
    cases h
    exact sameFxu_answer s .written
  · exact (performAccess_next h).sameFxu fun _ _ => Bool.eq_false_iff.2 (mt Access.w32_accepted_iff.1 h4)

theorem performAccess_w32_onlyStatus {atomic : Bool} {off : Offset} {v : Word32} {s t : State}
    (h : performAccess atomic (.w32 off v) s = .next t) (hoff : off.val = 0x004) :
    SameFxu s { t with status := s.status } := by
  obtain rfl : off = 0x004 := Fin.ext hoff
  obtain rfl : (s.answer .written).writeStatus v = t := Host.Outcome.next.inj h
  rw [State.writeStatus_eq]
  exact sameFxu_answer s .written

theorem performAccess_w32_onlyCtrl {atomic : Bool} {off : Offset} {v : Word32} {s t : State}
    (h : performAccess atomic (.w32 off v) s = .next t) (hoff : off.val = 0x008) :
    SameFxu s { t with ctrl := s.ctrl } := by
  obtain rfl : off = 0x008 := Fin.ext hoff
  obtain rfl : (s.answer .written).writeCtrl v = t := Host.Outcome.next.inj h
  exact sameFxu_answer s .written

theorem performAccess_w32_onlyRegisterAt {atomic : Bool} {off : Offset} {v : Word32} {s t : State}
    (h : performAccess atomic (.w32 off v) s = .next t) (hoff : InDataRegisters off) : OnlyRegisterAt off s t := by
  by_cases h4 : off.val % 4 = 0
  · have hin : inRegisters off = true := (inRegisters_iff off).2 hoff
    rw [performAccess_w32_register atomic v hin h4] at h
    cases h
    exact s.writeX_onlyRegisterAt _ hin
  · exact onlyRegisterAt_of_sameFxu (performAccess_w32_ignored h (.inr (.inr h4)))

/-- A 64-bit write that is not at a whole data register is rejected (R53, R54). -/
theorem performAccess_w64_rejected {atomic : Bool} {off : Offset} {u : Word64} {s t : State}
    (h : performAccess atomic (.w64 off u) s = .next t) (hoff : ¬ InDataRegisters off ∨ off.val % 8 ≠ 0) : SameFxu s t := by
  have hrej : (Access.w64 off u).accepted = false := by
    rw [Bool.eq_false_iff, Ne, Access.w64_accepted_iff, exists_lowOffset_iff, inRegisters_iff]
    exact not_and_or.2 hoff
  exact (performAccess_next h).sameFxu fun _ _ => hrej

theorem performAccess_w64_onlyRegisterAt {atomic : Bool} {off : Offset} {u : Word64} {s t : State}
    (h : performAccess atomic (.w64 off u) s = .next t) (hoff : InDataRegisters off) : OnlyRegisterAt off s t := by
  by_cases h8 : off.val % 8 = 0
  · have hin : inRegisters off = true := (inRegisters_iff off).2 hoff
    obtain ⟨r, rfl⟩ := (exists_lowOffset_iff off).2 ⟨hin, h8⟩
    have hframe := s.writeX_onlyRegisterAt u hin
    rw [performAccess_w64] at h
    cases h
    rwa [registerAt_lowOffset] at hframe
  · exact onlyRegisterAt_of_sameFxu (performAccess_w64_rejected h (.inr h8))

end Sys2Proof.Machine

namespace Sys2Proof.Proofs

open Sys2Proof.Machine Sys2Proof.Claims

/-- Settles O43: only an accepted 32-bit or 64-bit write changes FXU state, and that write changes the register it addresses. -/
theorem accessesHaveNoOtherEffect : Obligations.AccessesHaveNoOtherEffect := by
  intro s t atomic off b h v u
  refine ⟨fun a ha hperf => ?_, fun hperf => ?_, fun hperf => ?_, fun hperf => ?_, rfl, rfl⟩
  · refine (performAccess_next hperf).sameFxu fun o hw => ?_
    obtain rfl | rfl | rfl | rfl := ha <;> simp [IsWriteAt] at hw
  · exact ⟨performAccess_w32_ignored hperf, performAccess_w32_onlyStatus hperf, performAccess_w32_onlyCtrl hperf,
      performAccess_w32_onlyRegisterAt hperf⟩
  · exact ⟨performAccess_w64_onlyRegisterAt hperf, performAccess_w64_rejected hperf⟩
  · obtain h8 | h16 := hperf
    · exact (performAccess_next h8).sameFxu fun _ _ => rfl
    · exact (performAccess_next h16).sameFxu fun _ _ => rfl

/-- Settles O45: acceptance by the width of the access, and a rejected access is answered by a rejection alone. -/
theorem rejectedAccessesChangeNothing : Obligations.RejectedAccessesChangeNothing := by
  intro a
  constructor
  · cases a with
    | r8 | r16 | w8 | w16 => simp [Access.accepted]
    | r32 => simp [Access.r32_accepted_iff]
    | w32 => simp [Access.w32_accepted_iff]
    | r64 => simp [Access.r64_accepted_iff]
    | w64 => simp [Access.w64_accepted_iff]
  · intro hrej s atomic
    obtain hread | hwrite := performAccess_rejected atomic hrej s
    · exact ⟨_, _, hread, sameFxu_rejectRead s, rfl, rfl, rfl, .inl ⟨_, _, rfl⟩⟩
    · exact ⟨_, _, hwrite, sameFxu_rejectWrite s, rfl, rfl, rfl, .inr ⟨_, rfl⟩⟩

end Sys2Proof.Proofs
end

section
/-! PROOFS. The interlock: which accesses wait for the command in flight, and that it has no effect before its completion
(20_memory.md R59 to R61). -/

namespace Sys2Proof.Machine

open Sys2Proof.Claims

/-! ### The host's turn of a running unit (R59, R60) -/

theorem hostTurn_holds (atomic : Bool) {s : State} {a : Access} {rest : List Access} (hpow : s.power = .running)
    (hbusy : s.busy = true) (hheld : s.held = none) (hacc : s.accesses = a :: rest) (ha : a.isStatusRead = false) :
    hostTurn atomic s = .next { s with accesses := rest, held := some a } := by
  simp [hostTurn, hacc, hpow, hheld, hbusy, ha]

/-- While an access is held, a later one waits behind it (R59; log 12). -/
theorem hostTurn_waits (atomic : Bool) {s : State} {a b : Access} {rest : List Access} (hpow : s.power = .running)
    (hheld : s.held = some a) (hacc : s.accesses = b :: rest) : hostTurn atomic s = .next s := by
  simp [hostTurn, hacc, hpow, hheld]

theorem hostTurn_performs (atomic : Bool) {s : State} {a : Access} {rest : List Access} (hpow : s.power = .running)
    (hheld : s.held = none) (hacc : s.accesses = a :: rest) (hfree : s.busy = false ∨ a.isStatusRead = true) :
    hostTurn atomic s = performAccess atomic a { s with accesses := rest } := by
  have hgo : (s.busy && !a.isStatusRead) = false := by
    obtain hidle | hread := hfree
    · rw [hidle, Bool.false_and]
    · rw [hread, Bool.not_true, Bool.and_false]
  simp [hostTurn, hacc, hpow, hheld, hgo]

/-- A held access is performed as soon as nothing is in flight (R60; log 11). -/
theorem step_released {s : State} {a : Access} (hpow : s.power = .running) (hidle : s.busy = false)
    (hheld : s.held = some a) : step s = performAccess s.schedule.isEmpty a { s with held := none } := by
  simp [step, releasedAccess, hpow, hidle, hheld]

/-! ### No effect before the completion (R61) -/

/-- No register has changed, nor reset and the supply. -/
def SameRegisters (s t : State) : Prop :=
  t.x = s.x ∧ t.status = s.status ∧ t.ctrl = s.ctrl ∧ t.errcmd = s.errcmd ∧ t.power = s.power

theorem sameRegisters_of_sameFxu {s t : State} (h : SameFxu s t) : SameRegisters s t := by
  obtain ⟨hx, hstatus, hctrl, herrcmd, -, -, hpower⟩ := h
  exact ⟨hx, hstatus, hctrl, herrcmd, hpower⟩

/-- A move of the FXU that does not end the command in flight works on its hidden state only (R32). -/
theorem FxuMoved.sameRegisters {s t : State} (hm : FxuMoved s t) (hbusy : t.busy = true) : SameRegisters s t := by
  cases hm with
  | idle _ eq => subst eq; exact ⟨rfl, rfl, rfl, rfl, rfl⟩
  | shift f e _ _ _ eq => subst eq; exact ⟨rfl, rfl, rfl, rfl, rfl⟩
  | finished f _ _ run =>
    obtain ⟨rd, w, hends⟩ := finish_next run
    exact absurd hbusy (by simp [State.busy, hends.flight])

/-- The interlock lets no write through, and what ends the command otherwise leaves nothing in flight. -/
theorem Stepped.sameRegisters {s t : State} (hs : Stepped s t) (hbusy : s.busy = true) (hbusy' : t.busy = true) :
    SameRegisters s t := by
  have hfl : s.flight ≠ none := fun h => absurd hbusy (by simp [State.busy, h])
  cases hs with
  | released a _ _ fl _ => exact absurd fl hfl
  | performed ts a rest _ _ _ free eff =>
    obtain rfl := a.isStatusRead_iff.1 (free.resolve_left hfl)
    exact sameRegisters_of_sameFxu (eff.sameFxu fun off hw => by simp [IsWriteAt] at hw)
  | held ts a rest _ _ _ _ eq => subst eq; exact ⟨rfl, rfl, rfl, rfl, rfl⟩
  | fxu ts _ eff => exact eff.sameRegisters hbusy'
  | reset ts p _ eq => subst eq; cases hbusy'
  | powerDown ts eq => subst eq; cases hbusy'
  | passed ts eq => subst eq; exact ⟨rfl, rfl, rfl, rfl, rfl⟩

end Sys2Proof.Machine

namespace Sys2Proof.Proofs

open Sys2Proof.Machine

/-- Settles O37: the inversion of `step`; in each of its cases the command ends or no register changes. -/
theorem noEffectBeforeCompletion : Obligations.NoEffectBeforeCompletion :=
  fun _ _ hstep hbusy hbusy' => (step_next hstep).sameRegisters hbusy hbusy'

/-- Settles O35: the host's turn holds the access or waits, and a held access of an idle unit goes first. -/
theorem interlockHoldsAccesses : Obligations.InterlockHoldsAccesses := by
  refine ⟨fun s a rest ts hpow hbusy hheld hsched hacc ha => ?_, fun s a b rest ts hpow hbusy hheld hsched hacc => ?_,
    fun s a hpow hidle hheld => step_released hpow hidle hheld⟩
  · have hread : a.isStatusRead = false := Bool.eq_false_iff.2 (mt a.isStatusRead_iff.1 ha)
    rw [step_scheduled (.inl hheld) hsched]
    exact hostTurn_holds false (s := { s with schedule := ts }) hpow hbusy hheld hacc hread
  · rw [step_scheduled (.inr hbusy) hsched]
    exact hostTurn_waits false (s := { s with schedule := ts }) hpow hheld hacc

/-- Settles O36: the read is performed, and its answer is STATUS, read bit by bit (R26). -/
theorem statusReadWhileBusyShowsBusy : Obligations.StatusReadWhileBusyShowsBusy := by
  intro s rest ts hpow hbusy hheld hsched hacc
  have hturn := hostTurn_performs false (s := { s with schedule := ts }) hpow hheld hacc (.inr rfl)
  rw [performAccess_statusRead false rfl] at hturn
  exact ⟨s.statusWord, (step_scheduled (.inl hheld) hsched).trans hturn, (s.statusWord_getLsbD 0).trans hbusy,
    s.statusWord_getLsbD 1, s.statusWord_getLsbD 2, s.statusWord_getLsbD 3, s.statusWord_getLsbD 4, s.statusWord_cause⟩

end Sys2Proof.Proofs
end

section
/-! PROOFS. A held access stays one that may be held, and reset keeps the values of R34: each thing a step can do keeps them so
(20_memory.md R60, 70_reset_and_hazards.md R240). -/

namespace Sys2Proof.Machine

open Sys2Proof.Claims

/-! ### What neither a command nor an access touches -/

/-- The held access, reset and the supply are as they were. -/
def SameHolding (s t : State) : Prop := t.held = s.held ∧ t.power = s.power

theorem EndsCommand.sameHolding {rd : RegId} {w : Word32} {s t : State} (he : EndsCommand rd w s t) : SameHolding s t := by
  obtain ⟨r, ov, rfl⟩ | ⟨c, -, rfl⟩ := he
  · exact ⟨rfl, rfl⟩
  · exact ⟨rfl, rfl⟩

theorem Presented.sameHolding {w : Word32} {s t : State} (hp : Presented w s t) : SameHolding s t := by
  cases hp with
  | dropped _ eq => subst eq; exact ⟨rfl, rfl⟩
  | illegal _ _ eq => subst eq; exact ⟨rfl, rfl⟩
  | accepted i _ _ eq => subst eq; exact ⟨rfl, rfl⟩
  | executed i _ _ run => exact (exec_next run).sameHolding

theorem Wrote32.sameHolding {off : Offset} {v : Word32} {s t : State} (hw : Wrote32 off v s t) : SameHolding s t := by
  cases hw with
  | status _ eq => subst eq; exact ⟨s.writeStatus_held v, s.writeStatus_power v⟩
  | ctrl _ eq => subst eq; exact ⟨rfl, rfl⟩
  | half _ eq => subst eq; exact ⟨rfl, rfl⟩
  | ignored _ _ _ eq => subst eq; exact ⟨rfl, rfl⟩

theorem Performed.sameHolding {a : Access} {s t : State} (hp : Performed a s t) : SameHolding s t := by
  cases hp with
  | read r _ eq => subst eq; exact ⟨rfl, rfl⟩
  | rejectedRead _ eq => subst eq; exact ⟨rfl, rfl⟩
  | rejectedWrite _ eq => subst eq; exact ⟨rfl, rfl⟩
  | command w _ pre => exact pre.sameHolding
  | write32 off v _ _ _ eq => subst eq; exact (write32_wrote off v _).sameHolding
  | write64 off v _ _ eq => subst eq; exact ⟨rfl, rfl⟩

theorem FxuMoved.sameHolding {s t : State} (hm : FxuMoved s t) : SameHolding s t := by
  cases hm with
  | idle _ eq => subst eq; exact ⟨rfl, rfl⟩
  | shift f e _ _ _ eq => subst eq; exact ⟨rfl, rfl⟩
  | finished f _ _ run =>
    obtain ⟨rd, w, hends⟩ := finish_next run
    exact hends.sameHolding

/-! ### The two invariants -/

theorem State.heldIsHoldable_of_held_none {s : State} (h : s.held = none) : s.HeldIsHoldable := by
  intro a ha
  rw [h] at ha
  cases ha

theorem SameHolding.heldIsHoldable {s t : State} (hst : SameHolding s t) (h : s.HeldIsHoldable) : t.HeldIsHoldable := by
  obtain ⟨hheld, hpow⟩ := hst
  intro a ha
  rw [hpow]
  exact h a (hheld ▸ ha)

theorem SameHolding.resetIsQuiet {s t : State} (hst : SameHolding s t) (h : s.power = .running) : t.ResetIsQuiet := by
  obtain ⟨-, hpow⟩ := hst
  intro hreset
  rw [hpow, h] at hreset
  cases hreset

theorem Stepped.heldIsHoldable {s t : State} (hs : Stepped s t) (h : s.HeldIsHoldable) : t.HeldIsHoldable := by
  cases hs with
  | released a _ _ _ eff => exact eff.sameHolding.heldIsHoldable (State.heldIsHoldable_of_held_none rfl)
  | performed ts a rest _ _ _ _ eff => exact eff.sameHolding.heldIsHoldable h
  | held ts a rest _ pow _ ns eq =>
    subst eq
    intro b hb
    obtain rfl : a = b := Option.some.inj hb
    exact ⟨ns, pow⟩
  | fxu ts _ eff => exact eff.sameHolding.heldIsHoldable h
  | reset ts p _ eq => subst eq; exact State.heldIsHoldable_of_held_none rfl
  | powerDown ts eq => subst eq; exact State.heldIsHoldable_of_held_none rfl
  | passed ts eq => subst eq; exact h

/-- Of the moves that a unit in reset can see, one sets every register again and the others leave it or take the supply away. -/
theorem Stepped.resetIsQuiet {s t : State} (hs : Stepped s t) (h : s.ResetIsQuiet) : t.ResetIsQuiet := by
  cases hs with
  | released a _ pow _ eff => exact eff.sameHolding.resetIsQuiet pow
  | performed ts a rest _ pow _ _ eff => exact eff.sameHolding.resetIsQuiet pow
  | held ts a rest _ pow _ _ eq => subst eq; intro hreset; exact nomatch pow.symm.trans hreset
  | fxu ts pow eff => exact eff.sameHolding.resetIsQuiet pow
  | reset ts p _ eq =>
    subst eq
    intro hreset
    obtain rfl : p = .inReset := hreset
    rfl
  | powerDown ts eq => subst eq; intro hreset; cases hreset
  | passed ts eq =>
    subst eq
    intro hreset
    exact congrArg (fun u : State => { u with schedule := ts }) (h hreset)

end Sys2Proof.Machine

namespace Sys2Proof.Proofs

open Sys2Proof.Machine

/-- Settles O53: the inversion of `step`, and each of its cases keeps both invariants. -/
theorem stepKeepsHeldAndResetState : Obligations.StepKeepsHeldAndResetState :=
  fun _ _ hheld hquiet hstep => ⟨(step_next hstep).heldIsHoldable hheld, (step_next hstep).resetIsQuiet hquiet⟩

end Sys2Proof.Proofs
end

section
/-! PROOFS. The opcode map: at most one row matches a word, and the command word is the sum of its fields (30_encoding.md R81 to
R86). -/

namespace Sys2Proof

/-! ### At most one row matches (R86) -/

theorem OpcodeRow.selects_iff (r : OpcodeRow) (w : Word32) : r.selects w = true ↔ w &&& r.mask = r.pattern := beq_iff_eq

/-- Every row's mask keeps `fmt` and `op`, the bits in which the rows differ, so that a matching row's `match` value is known
from these bits of the word alone. -/
theorem pattern_eq_low_bits {r : OpcodeRow} (hr : r ∈ opcodeRows) {w : Word32} (h : w &&& r.mask = r.pattern) :
    r.pattern = w &&& 0x3F#32 := by
  have hlow : ∀ r ∈ opcodeRows, r.mask &&& 0x3F#32 = 0x3F#32 ∧ r.pattern &&& 0x3F#32 = r.pattern := by decide
  obtain ⟨hmask, hpattern⟩ := hlow r hr
  rw [← hpattern, ← h, BitVec.and_assoc, hmask]

theorem nodup_patterns : (opcodeRows.map OpcodeRow.pattern).Nodup := by decide

theorem row_unique {r r' : OpcodeRow} (hr : r ∈ opcodeRows) (hr' : r' ∈ opcodeRows) {w : Word32}
    (h : w &&& r.mask = r.pattern) (h' : w &&& r'.mask = r'.pattern) : r = r' :=
  List.inj_on_of_nodup_map nodup_patterns hr hr' ((pattern_eq_low_bits hr h).trans (pattern_eq_low_bits hr' h').symm)

theorem length_filter_rows_le_one (w : Word32) : (opcodeRows.filter (·.selects w)).length ≤ 1 := by
  calc (opcodeRows.filter (·.selects w)).length
      = opcodeRows.countP (·.selects w) := List.countP_eq_length_filter.symm
    _ ≤ opcodeRows.countP (·.pattern == w &&& 0x3F#32) :=
        List.countP_mono_left fun r hr h => beq_iff_eq.2 (pattern_eq_low_bits hr ((r.selects_iff w).1 h))
    _ = (opcodeRows.map OpcodeRow.pattern).count (w &&& 0x3F#32) := by rw [List.count, List.countP_map]; rfl
    _ ≤ 1 := List.nodup_iff_count_le_one.1 nodup_patterns _

/-! ### What the decoder answers (R84) -/

theorem matches_of_find? {r : OpcodeRow} {w : Word32} (h : opcodeRows.find? (·.selects w) = some r) :
    r ∈ opcodeRows ∧ w &&& r.mask = r.pattern := by
  have hsel : r.selects w = true := List.find?_some (p := fun r : OpcodeRow => r.selects w) h
  exact ⟨List.mem_of_find?_eq_some h, (r.selects_iff w).1 hsel⟩

theorem decode_eq_some_iff {w : Word32} {i : Instr} :
    decode w = some i ↔ ∃ r ∈ opcodeRows, w &&& r.mask = r.pattern ∧ i = r.build w := by
  rw [decode, Option.map_eq_some_iff]
  constructor
  · rintro ⟨r, hfind, hbuild⟩
    obtain ⟨hr, hsel⟩ := matches_of_find? hfind
    exact ⟨r, hr, hsel, hbuild.symm⟩
  · rintro ⟨r, hr, hsel, hbuild⟩
    have hsome : (opcodeRows.find? (·.selects w)).isSome := List.find?_isSome.2 ⟨r, hr, (r.selects_iff w).2 hsel⟩
    obtain ⟨r', hfind⟩ := Option.isSome_iff_exists.1 hsome
    obtain ⟨hr', hsel'⟩ := matches_of_find? hfind
    obtain rfl := row_unique hr hr' hsel hsel'
    exact ⟨r, hfind, hbuild.symm⟩

theorem decode_ne_none_iff (w : Word32) : decode w ≠ none ↔ ∃ r ∈ opcodeRows, w &&& r.mask = r.pattern := by
  simp only [Option.ne_none_iff_exists', decode_eq_some_iff]
  constructor
  · rintro ⟨-, r, hr, hsel, -⟩
    exact ⟨r, hr, hsel⟩
  · rintro ⟨r, hr, hsel⟩
    exact ⟨r.build w, r, hr, hsel, rfl⟩

/-! ### The fields of a word (R81, R83) -/

theorem rdField_val (w : Word32) : (rdField w).val = w.toNat / 64 % 8 := Nat.mod_mod _ _

theorem rs1Field_val (w : Word32) : (rs1Field w).val = w.toNat / 512 % 8 := Nat.mod_mod _ _

theorem rs2Field_val (w : Word32) : (rs2Field w).val = w.toNat / 4096 % 8 := Nat.mod_mod _ _

theorem imm5Field_eq (w : Word32) : imm5Field w = w.toNat / 32768 % 32 := rfl

theorem toNat_extractLsb' (w : Word32) (lo len : Nat) : (w.extractLsb' lo len).toNat = w.toNat / 2 ^ lo % 2 ^ len := by
  rw [BitVec.extractLsb'_toNat, Nat.shiftRight_eq_div_pow]

theorem rdField_eq_extractLsb' (w : Word32) : rdField w = (w.extractLsb' 6 3).toFin :=
  Fin.ext ((rdField_val w).trans (toNat_extractLsb' w 6 3).symm)

theorem rs1Field_eq_extractLsb' (w : Word32) : rs1Field w = (w.extractLsb' 9 3).toFin :=
  Fin.ext ((rs1Field_val w).trans (toNat_extractLsb' w 9 3).symm)

theorem rs2Field_eq_extractLsb' (w : Word32) : rs2Field w = (w.extractLsb' 12 3).toFin :=
  Fin.ext ((rs2Field_val w).trans (toNat_extractLsb' w 12 3).symm)

theorem imm5Field_eq_extractLsb' (w : Word32) : imm5Field w = (w.extractLsb' 15 5).toNat := (toNat_extractLsb' w 15 5).symm

/-! ### Each field of an encoding, and the encoding of a word's fields (R85) -/

section
variable (imm5 : Nat) (rd rs1 rs2 : RegId) {low : Nat} (hlow : low < 64)
include hlow

theorem rdField_encodeFields : rdField (encodeFields imm5 rs2 rs1 rd low) = rd := by
  apply Fin.ext
  rw [rdField_val, encodeFields_toNat rs2.isLt rs1.isLt rd.isLt hlow]
  omega

theorem rs1Field_encodeFields : rs1Field (encodeFields imm5 rs2 rs1 rd low) = rs1 := by
  apply Fin.ext
  rw [rs1Field_val, encodeFields_toNat rs2.isLt rs1.isLt rd.isLt hlow]
  omega

theorem rs2Field_encodeFields : rs2Field (encodeFields imm5 rs2 rs1 rd low) = rs2 := by
  apply Fin.ext
  rw [rs2Field_val, encodeFields_toNat rs2.isLt rs1.isLt rd.isLt hlow]
  omega

theorem imm5Field_encodeFields : imm5Field (encodeFields imm5 rs2 rs1 rd low) = imm5 % 32 := by
  rw [imm5Field_eq, encodeFields_toNat rs2.isLt rs1.isLt rd.isLt hlow]
  omega

end

/-- A word without reserved bits (R81: bits 31:20) is the sum of its fields. -/
theorem encodeFields_of_fields {w : Word32} (hres : w.toNat / 1048576 = 0) :
    encodeFields (imm5Field w) (rs2Field w) (rs1Field w) (rdField w) (w.toNat % 64) = w := by
  apply BitVec.eq_of_toNat_eq
  rw [encodeFields_toNat (rs2Field w).isLt (rs1Field w).isLt (rdField w).isLt (Nat.mod_lt _ (by decide)), rdField_val,
    rs1Field_val, rs2Field_val, imm5Field_eq]
  omega

/-! ### The three forms of R81, from the instruction to its word and back -/

section
variable {low : Nat} (hlow : low < 64)
include hlow

theorem decode_regForm {mk : RegId → RegId → RegId → Instr}
    (hrow : ⟨0xFFFF803F#32, BitVec.ofNat 32 low, regForm mk⟩ ∈ opcodeRows) (rd rs1 rs2 : RegId) :
    decode (encodeFields 0 rs2 rs1 rd low) = some (mk rd rs1 rs2) := by
  refine decode_eq_some_iff.2 ⟨_, hrow, regForm_row rd rs1 rs2 hlow, ?_⟩
  simp only [regForm, rdField_encodeFields _ _ _ _ hlow, rs1Field_encodeFields _ _ _ _ hlow, rs2Field_encodeFields _ _ _ _ hlow]

theorem decode_sqrtForm {mk : RegId → RegId → Instr}
    (hrow : ⟨0xFFFFF03F#32, BitVec.ofNat 32 low, fun w => mk (rdField w) (rs1Field w)⟩ ∈ opcodeRows) (rd rs1 : RegId) :
    decode (encodeFields 0 0 rs1 rd low) = some (mk rd rs1) := by
  refine decode_eq_some_iff.2 ⟨_, hrow, sqrtForm_row rd rs1 hlow, ?_⟩
  exact (congrArg₂ mk (rdField_encodeFields 0 rd rs1 0 hlow) (rs1Field_encodeFields 0 rd rs1 0 hlow)).symm

theorem encodeFields_of_regRow {w : Word32} (h : w &&& 0xFFFF803F#32 = BitVec.ofNat 32 low) :
    encodeFields 0 (rs2Field w) (rs1Field w) (rdField w) low = w := by
  have hp : (BitVec.ofNat 32 low).toNat = low := by rw [BitVec.toNat_ofNat]; omega
  obtain ⟨hl, hhigh⟩ := (and_regMask _ _ (by omega)).1 h
  have himm5 : imm5Field w = 0 := by rw [imm5Field_eq]; omega
  simpa only [himm5, hl, hp] using encodeFields_of_fields (w := w) (by omega)

theorem encodeFields_of_sqrtRow {w : Word32} (h : w &&& 0xFFFFF03F#32 = BitVec.ofNat 32 low) :
    encodeFields 0 0 (rs1Field w) (rdField w) low = w := by
  have hp : (BitVec.ofNat 32 low).toNat = low := by rw [BitVec.toNat_ofNat]; omega
  obtain ⟨hl, hhigh⟩ := (and_sqrtMask _ _ (by omega)).1 h
  have himm5 : imm5Field w = 0 := by rw [imm5Field_eq]; omega
  have hrs2 : (rs2Field w).val = 0 := by rw [rs2Field_val]; omega
  simpa only [himm5, hrs2, hl, hp] using encodeFields_of_fields (w := w) (by omega)

end

theorem decode_encode_scale (rd : RegId) {idx : Nat} (hidx : idx < 32) :
    decode (encode (.scale rd idx)) = some (.scale rd idx) := by
  refine decode_eq_some_iff.2 ⟨⟨0xFFF07E3F#32, 0x00000017#32, fun w => .scale (rdField w) (imm5Field w)⟩, by simp [opcodeRows],
    Laws.Row.scale rd idx, ?_⟩
  have himm5 : imm5Field (encode (.scale rd idx)) = idx :=
    (imm5Field_encodeFields idx rd 0 0 (by decide)).trans (Nat.mod_eq_of_lt hidx)
  exact (congrArg₂ Instr.scale (rdField_encodeFields idx rd 0 0 (by decide)) himm5).symm

theorem encode_scale_of_scaleRow {w : Word32} (h : w &&& 0xFFF07E3F#32 = 0x00000017#32) :
    encode (.scale (rdField w) (imm5Field w)) = w := by
  obtain ⟨hl, hregs, hres⟩ := (and_scaleMask _ _ (by decide)).1 h
  have hrs1 : (rs1Field w).val = 0 := by rw [rs1Field_val]; omega
  have hrs2 : (rs2Field w).val = 0 := by rw [rs2Field_val]; omega
  have hsum := encodeFields_of_fields hres
  rw [hl, hrs1, hrs2] at hsum
  exact hsum

/-! ### The rows one by one -/

/-- A word that the row matches is the only word of the instruction it builds. -/
def OpcodeRow.HasOneWord (r : OpcodeRow) : Prop :=
  ∀ w, w &&& r.mask = r.pattern → wellFormed (r.build w) = true ∧ encode (r.build w) = w

theorem regForm_hasOneWord {mk : RegId → RegId → RegId → Instr} (low : Nat) (hlow : low < 64)
    (henc : ∀ rd rs1 rs2, wellFormed (mk rd rs1 rs2) = true ∧ encode (mk rd rs1 rs2) = encodeFields 0 rs2 rs1 rd low) :
    OpcodeRow.HasOneWord ⟨0xFFFF803F#32, BitVec.ofNat 32 low, regForm mk⟩ := by
  intro w h
  obtain ⟨hwf, hword⟩ := henc (rdField w) (rs1Field w) (rs2Field w)
  exact ⟨hwf, hword.trans (encodeFields_of_regRow hlow h)⟩

theorem sqrtForm_hasOneWord {mk : RegId → RegId → Instr} (low : Nat) (hlow : low < 64)
    (henc : ∀ rd rs1, wellFormed (mk rd rs1) = true ∧ encode (mk rd rs1) = encodeFields 0 0 rs1 rd low) :
    OpcodeRow.HasOneWord ⟨0xFFFFF03F#32, BitVec.ofNat 32 low, fun w => mk (rdField w) (rs1Field w)⟩ := by
  intro w h
  obtain ⟨hwf, hword⟩ := henc (rdField w) (rs1Field w)
  exact ⟨hwf, hword.trans (encodeFields_of_sqrtRow hlow h)⟩

theorem scaleForm_hasOneWord :
    OpcodeRow.HasOneWord ⟨0xFFF07E3F#32, 0x00000017#32, fun w => .scale (rdField w) (imm5Field w)⟩ :=
  fun _ h => ⟨decide_eq_true (Nat.mod_lt _ (by decide)), encode_scale_of_scaleRow h⟩

theorem rows_haveOneWord : ∀ r ∈ opcodeRows, r.HasOneWord := by
  simp only [opcodeRows, List.forall_mem_cons]
  exact ⟨
    regForm_hasOneWord 1 (by decide) fun _ _ _ => ⟨rfl, rfl⟩, regForm_hasOneWord 17 (by decide) fun _ _ _ => ⟨rfl, rfl⟩,
    regForm_hasOneWord 2 (by decide) fun _ _ _ => ⟨rfl, rfl⟩, regForm_hasOneWord 18 (by decide) fun _ _ _ => ⟨rfl, rfl⟩,
    regForm_hasOneWord 3 (by decide) fun _ _ _ => ⟨rfl, rfl⟩, regForm_hasOneWord 19 (by decide) fun _ _ _ => ⟨rfl, rfl⟩,
    regForm_hasOneWord 4 (by decide) fun _ _ _ => ⟨rfl, rfl⟩, regForm_hasOneWord 20 (by decide) fun _ _ _ => ⟨rfl, rfl⟩,
    regForm_hasOneWord 5 (by decide) fun _ _ _ => ⟨rfl, rfl⟩, regForm_hasOneWord 21 (by decide) fun _ _ _ => ⟨rfl, rfl⟩,
    sqrtForm_hasOneWord 6 (by decide) fun _ _ => ⟨rfl, rfl⟩, sqrtForm_hasOneWord 22 (by decide) fun _ _ => ⟨rfl, rfl⟩,
    scaleForm_hasOneWord, nofun⟩

theorem decode_encode {i : Instr} (h : wellFormed i = true) : decode (encode i) = some i := by
  cases i with
  | addFx32 rd rs1 rs2 => exact decode_regForm (mk := .addFx32) (by decide) (by simp [opcodeRows]) rd rs1 rs2
  | addFx64 rd rs1 rs2 => exact decode_regForm (mk := .addFx64) (by decide) (by simp [opcodeRows]) rd rs1 rs2
  | subFx32 rd rs1 rs2 => exact decode_regForm (mk := .subFx32) (by decide) (by simp [opcodeRows]) rd rs1 rs2
  | subFx64 rd rs1 rs2 => exact decode_regForm (mk := .subFx64) (by decide) (by simp [opcodeRows]) rd rs1 rs2
  | mulFx32 rd rs1 rs2 => exact decode_regForm (mk := .mulFx32) (by decide) (by simp [opcodeRows]) rd rs1 rs2
  | mulFx64 rd rs1 rs2 => exact decode_regForm (mk := .mulFx64) (by decide) (by simp [opcodeRows]) rd rs1 rs2
  | divFx32 rd rs1 rs2 => exact decode_regForm (mk := .divFx32) (by decide) (by simp [opcodeRows]) rd rs1 rs2
  | divFx64 rd rs1 rs2 => exact decode_regForm (mk := .divFx64) (by decide) (by simp [opcodeRows]) rd rs1 rs2
  | macFx32 rd rs1 rs2 => exact decode_regForm (mk := .macFx32) (by decide) (by simp [opcodeRows]) rd rs1 rs2
  | macFx64 rd rs1 rs2 => exact decode_regForm (mk := .macFx64) (by decide) (by simp [opcodeRows]) rd rs1 rs2
  | sqrtFx32 rd rs1 => exact decode_sqrtForm (mk := .sqrtFx32) (by decide) (by simp [opcodeRows]) rd rs1
  | sqrtFx64 rd rs1 => exact decode_sqrtForm (mk := .sqrtFx64) (by decide) (by simp [opcodeRows]) rd rs1
  | scale rd idx => exact decode_encode_scale rd (of_decide_eq_true h)

/-! ### The legal words by their fields (R86) -/

theorem decode_ne_none_iff_forms (w : Word32) :
    decode w ≠ none ↔
      w &&& 0xFFFF803F#32 ∈ [1#32, 17#32, 2#32, 18#32, 3#32, 19#32, 4#32, 20#32, 5#32, 21#32] ∨
        w &&& 0xFFFFF03F#32 ∈ [6#32, 22#32] ∨ w &&& 0xFFF07E3F#32 = 23#32 := by
  simp only [decode_ne_none_iff, opcodeRows, List.mem_cons, exists_eq_or_imp, List.not_mem_nil, or_false, exists_eq_left, or_assoc]

theorem regRow_iff_fields (w : Word32) :
    w &&& 0xFFFF803F#32 ∈ [1#32, 17#32, 2#32, 18#32, 3#32, 19#32, 4#32, 20#32, 5#32, 21#32] ↔
      (1 ≤ w.toNat % 16 ∧ w.toNat % 16 ≤ 5) ∧ w.toNat / 16 % 4 ≤ 1 ∧ w.toNat / 32768 % 32 = 0 ∧ w.toNat / 1048576 = 0 := by
  simp (disch := decide) only [List.mem_cons, List.not_mem_nil, or_false, and_regMask, BitVec.toNat_ofNat, Nat.reducePow,
    Nat.reduceMod, ← or_and_right]
  omega

theorem sqrtRow_iff_fields (w : Word32) :
    w &&& 0xFFFFF03F#32 ∈ [6#32, 22#32] ↔
      w.toNat % 16 = 6 ∧ w.toNat / 16 % 4 ≤ 1 ∧ w.toNat / 4096 % 8 = 0 ∧ w.toNat / 32768 % 32 = 0 ∧ w.toNat / 1048576 = 0 := by
  simp (disch := decide) only [List.mem_cons, List.not_mem_nil, or_false, and_sqrtMask, BitVec.toNat_ofNat, Nat.reducePow,
    Nat.reduceMod, ← or_and_right]
  omega

theorem scaleRow_iff_fields (w : Word32) :
    w &&& 0xFFF07E3F#32 = 23#32 ↔
      w.toNat % 16 = 7 ∧ w.toNat / 16 % 4 = 1 ∧ w.toNat / 512 % 8 = 0 ∧ w.toNat / 4096 % 8 = 0 ∧ w.toNat / 1048576 = 0 := by
  rw [and_scaleMask _ _ (by decide), BitVec.toNat_ofNat]
  omega

/-- R86's list, from the fields `op`, `fmt`, `rs1`, `rs2`, `imm5` and the reserved bits. -/
def IllegalFields (op fmt rs1 rs2 imm5 res : Nat) : Prop :=
  op = 0 ∨ 8 ≤ op ∨ 2 ≤ fmt ∨ (op = 7 ∧ fmt = 0) ∨ res ≠ 0 ∨ (op ≠ 7 ∧ imm5 ≠ 0) ∨ ((op = 6 ∨ op = 7) ∧ rs2 ≠ 0) ∨
    (op = 7 ∧ rs1 ≠ 0)

/-- What R86's list leaves: each form of R81 with the fields it has not at 0. -/
theorem not_illegalFields_iff (op fmt rs1 rs2 imm5 res : Nat) : ¬ IllegalFields op fmt rs1 rs2 imm5 res ↔
    ((1 ≤ op ∧ op ≤ 5) ∧ fmt ≤ 1 ∧ imm5 = 0 ∧ res = 0) ∨ (op = 6 ∧ fmt ≤ 1 ∧ rs2 = 0 ∧ imm5 = 0 ∧ res = 0) ∨
      (op = 7 ∧ fmt = 1 ∧ rs1 = 0 ∧ rs2 = 0 ∧ res = 0) := by
  unfold IllegalFields
  omega

theorem decode_eq_none_iff_fields (w : Word32) :
    decode w = none ↔ IllegalFields (w.toNat % 16) (w.toNat / 16 % 4) (w.toNat / 512 % 8) (w.toNat / 4096 % 8)
      (w.toNat / 32768 % 32) (w.toNat / 1048576) := by
  rw [← not_iff_not, ← Ne, decode_ne_none_iff_forms, regRow_iff_fields, sqrtRow_iff_fields, scaleRow_iff_fields,
    not_illegalFields_iff]

end Sys2Proof

namespace Sys2Proof.Machine

open Sys2Proof.Claims

/-! ### An illegal word written to CMD (R86, R202) -/

theorem State.takeFault_faulted (s : State) (c : Cause) (w : Word32) : Faulted s (s.takeFault c w) c w :=
  ⟨rfl, rfl, rfl, rfl, rfl, rfl, rfl, rfl, rfl, rfl, rfl, rfl, rfl, rfl, rfl⟩

theorem performAccess_cmd (atomic : Bool) (w : Word32) (s : State) :
    performAccess atomic (.w32 0 w) s = present atomic w (s.answer .written) := rfl

theorem present_illegal (atomic : Bool) {w : Word32} {s : State} (herr : s.status.err = false) (hdec : decode w = none) :
    present atomic w s = .next (s.takeFault .illegal w) := by
  simp [present, herr, hdec]

end Sys2Proof.Machine

namespace Sys2Proof.Proofs

open Sys2Proof.Machine

/-- Settles O2: the instruction's own row builds it from its word. -/
theorem decodeOfEncodeIsTheInstruction : Obligations.DecodeOfEncodeIsTheInstruction := fun _ h => decode_encode h

/-- Settles O3: the row that matched requires of the word every bit that is no field of its instruction. -/
theorem encodeOfDecodeIsTheWord : Obligations.EncodeOfDecodeIsTheWord := by
  intro w i h
  obtain ⟨r, hr, hsel, rfl⟩ := decode_eq_some_iff.1 h
  exact rows_haveOneWord r hr w hsel

/-- Settles O4: the decoder's rows written out, with the fields as bits of the word. -/
theorem opcodeMapIsExact : Obligations.OpcodeMapIsExact := by
  intro w i
  simp only [decode_eq_some_iff, opcodeRows, List.mem_cons, exists_eq_or_imp, List.not_mem_nil, or_false, exists_eq_left,
    regForm, rdField_eq_extractLsb', rs1Field_eq_extractLsb', rs2Field_eq_extractLsb', imm5Field_eq_extractLsb']

/-- Settles O5: the rows exclude each other by `fmt` and `op`, and R86's list is the complement of what they require. -/
theorem illegalWordsAreExactlyThese : Obligations.IllegalWordsAreExactlyThese := by
  intro w
  refine ⟨length_filter_rows_le_one w, decode_ne_none_iff w, ?_, fun s atomic herr hdec => ?_, ?_⟩
  · have hres : w.toNat / 1048576 < 4096 := by omega
    rw [decode_eq_none_iff_fields]
    simp only [IllegalFields, toNat_extractLsb', Nat.reducePow, Nat.div_one, Nat.mod_eq_of_lt hres]
  · exact ⟨_, (performAccess_cmd atomic w s).trans (present_illegal atomic herr hdec), (s.answer .written).takeFault_faulted _ w⟩
  · rintro rd idx - hidx rfl
    exact decode_encode (decide_eq_true (Nat.lt_succ_of_le hidx))

/-- Settles O1: each word decoded. -/
theorem writtenWordsDecode : Obligations.WrittenWordsDecode := by
  unfold Obligations.WrittenWordsDecode
  decide

end Sys2Proof.Proofs
end

section
/-! PROOFS. The scale ROM and the SCALE command (40_scale_table.md R100, R101, R103). -/

namespace Sys2Proof.Machine

open Sys2Proof.Claims

/-! ### A completion meets its claim (R211) -/

/-- What `x[rd] <- r` stores is r itself where r fits (R10). -/
theorem toInt_ofInt_of_inRange {r : Int} (h : InRange 64 r) : (BitVec.ofInt 64 r).toInt = r :=
  BitVec.toInt_ofInt_eq_self (by decide) h.1 (Int.lt_of_le_sub_one h.2)

/-- A register's full view fits in 64 bits (R24). -/
theorem inRange_toInt (v : Word64) : InRange 64 v.toInt := ⟨v.le_toInt, Int.le_sub_one_of_lt v.toInt_lt⟩

theorem State.complete_x_self (s : State) (rd : RegId) (r : Int) (ov : Bool) :
    (s.complete rd r ov).x[rd] = BitVec.ofInt 64 r := s.writeX_x_self rd _

/-- A completion with a result that fits is `Completed`, for the overflow condition its flag stands for. -/
theorem State.complete_completed (s : State) (rd : RegId) {r : Int} {ov : Bool} {p : Prop} (hr : InRange 64 r)
    (hov : ov = true ↔ p) : Completed s (s.complete rd r ov) rd r p := by
  refine ⟨?_, fun q hq => s.complete_x_ne r ov hq, ?_, rfl, rfl, rfl, rfl, rfl, rfl, rfl, rfl, rfl, rfl, rfl, rfl, rfl⟩
  · rw [s.complete_x_self, toInt_ofInt_of_inRange hr]
  · rw [s.complete_status, Bool.or_eq_true, hov]

/-! ### The ROM (R100) -/

/-- R101's patterns are the powers R100 says, in order. -/
theorem scaleRom_toInt : scaleRom.map BitVec.toInt = (List.range 19).map ((10 : Int) ^ ·) := by
  decide

theorem romEntry_of_le {i : Nat} (h : i ≤ 18) : ∃ v, romEntry i = some v ∧ v.toInt = 10 ^ i := by
  have hentry : (romEntry i).map BitVec.toInt = some (10 ^ i) := by
    rw [romEntry, ← List.getElem?_map, scaleRom_toInt, List.getElem?_map, List.getElem?_range (Nat.lt_succ_of_le h),
      Option.map_some]
  exact Option.map_eq_some_iff.1 hentry

theorem romEntry_of_gt {i : Nat} (h : 18 < i) : romEntry i = none := List.getElem?_eq_none h

/-! ### The two ends of SCALE (R103) -/

theorem execScale_of_entry {idx : Nat} {v : Word64} (h : romEntry idx = some v) (rd : RegId) (s : State) :
    execScale rd idx s = .next (s.complete rd v.toInt false) := by
  simp only [execScale, h]

theorem execScale_of_no_entry {idx : Nat} (h : romEntry idx = none) (rd : RegId) (s : State) :
    execScale rd idx s = .next (s.takeFault .scaleRange (encode (.scale rd idx))) := by
  simp only [execScale, h]

end Sys2Proof.Machine

namespace Sys2Proof.Proofs

open Sys2Proof.Machine

/-- Settles O21: the table against the powers, and its length. -/
theorem scaleRomHoldsPowersOfTen : Obligations.ScaleRomHoldsPowersOfTen := fun _ => ⟨romEntry_of_le, romEntry_of_gt⟩

/-- Settles O22: SCALE completes exactly where the ROM has an entry, which is the power of ten and fits as it stands. -/
theorem scaleWritesPowerOfTenOrFaults : Obligations.ScaleWritesPowerOfTenOrFaults := by
  intro s rd idx _
  refine ⟨scaleForm_row rd idx (by decide), fun hle => ?_, fun hgt => ?_⟩
  · obtain ⟨v, hentry, hval⟩ := romEntry_of_le hle
    rw [← hval]
    exact ⟨_, execScale_of_entry hentry rd s, s.complete_completed rd (inRange_toInt v) Bool.false_eq_true.to_iff⟩
  · exact ⟨_, execScale_of_no_entry (romEntry_of_gt hgt) rd s, s.takeFault_faulted ..⟩

end Sys2Proof.Proofs
end

section
/-! PROOFS. Addition and subtraction (41_add_sub.md R121 to R125, 95_test_vectors.md section 3). -/

namespace Sys2Proof.Claims

open Sys2Proof.Machine

/-! ### Narrowing (R9) -/

theorem isWrap_wrap {n : Nat} (hn : 0 < n) (v : Int) : IsWrap n v (wrap n v) := (isWrap_iff_eq_wrap hn v _).2 rfl

theorem InRange.of_le {m n : Nat} (hmn : m ≤ n) {v : Int} (h : InRange m v) : InRange n v := by
  have hpow : (2 : Int) ^ (m - 1) ≤ 2 ^ (n - 1) := pow_le_pow_right₀ (by decide) (Nat.sub_le_sub_right hmn 1)
  exact ⟨(neg_le_neg hpow).trans h.1, h.2.trans (Int.sub_le_sub_right hpow 1)⟩

theorem overflows_iff_not_inRange (n : Nat) (v : Int) : overflows n v = true ↔ ¬ InRange n v := by
  rw [overflows, Bool.not_eq_true', ← Bool.not_eq_true, fits_iff_inRange]

theorem wrap_wrap (n : Nat) (v : Int) : wrap n (wrap n v) = wrap n v := Int.bmod_bmod

/-- A difference wraps to the same integer whether or not its first operand was wrapped before. -/
theorem wrap_wrap_add_sub_cancel (n : Nat) (a b : Int) : wrap n (wrap n (a + b) - b) = wrap n a := by
  rw [wrap, wrap, Int.bmod_sub_bmod, Int.add_sub_cancel, wrap]

end Sys2Proof.Claims

namespace Sys2Proof.Machine

open Sys2Proof.Claims

/-! ### A format's view is the stored integer narrowed to the format (R22, R24) -/

theorem low32_eq_view (s : State) (r : RegId) : low32 s r = Fmt.view .fx32 s.x[r] := by
  rw [low32, Fmt.view, BitVec.setWidth_eq_extractLsb' (by decide)]

theorem full64_eq_view (s : State) (r : RegId) : full64 s r = Fmt.view .fx64 s.x[r] := rfl

theorem Fmt.view_eq_wrap (f : Fmt) (p : Word64) : Fmt.view f p = wrap (Fmt.width f) p.toInt := by
  cases f with
  | fx32 =>
    have hdvd : 2 ^ 32 ∣ 2 ^ 64 := by decide
    rw [Fmt.view, BitVec.toInt_extractLsb', Nat.shiftRight_zero, wrap, BitVec.toInt_eq_toNat_bmod,
      Fmt.width, Int.bmod_bmod_of_dvd hdvd]
  | fx64 => rw [Fmt.view, Fmt.width, wrap, ← BitVec.toInt_ofInt, BitVec.ofInt_toInt]

/-- What `x[rd] <- r` stores, read back in a format (R10, R23). -/
theorem Fmt.view_ofInt (f : Fmt) (r : Int) : Fmt.view f (BitVec.ofInt 64 r) = wrap (Fmt.width f) r := by
  have hdvd : 2 ^ Fmt.width f ∣ 2 ^ 64 := by cases f <;> decide
  rw [Fmt.view_eq_wrap, wrap, BitVec.toInt_ofInt, Int.bmod_bmod_of_dvd hdvd, wrap]

theorem Fmt.width_pos (f : Fmt) : 0 < Fmt.width f := by cases f <;> decide

/-- A format's view of a register needs no narrowing. -/
theorem Fmt.wrap_view (f : Fmt) (p : Word64) : wrap (Fmt.width f) (Fmt.view f p) = Fmt.view f p := by
  rw [Fmt.view_eq_wrap, wrap_wrap]

theorem Fmt.inRange_view (f : Fmt) (p : Word64) : InRange (Fmt.width f) (Fmt.view f p) := by
  rw [Fmt.view_eq_wrap]
  exact (isWrap_wrap (Fmt.width_pos f) _).1

/-! ### A narrow-back (R125) -/

theorem State.completeNarrow_x_self (s : State) (n : Nat) (rd : RegId) (v : Int) (ov : Bool) :
    (s.completeNarrow n rd v ov).x[rd] = BitVec.ofInt 64 (wrap n v) := s.complete_x_self ..

theorem State.completeNarrow_x_ne (s : State) (n : Nat) {rd q : RegId} (v : Int) (ov : Bool) (h : q ≠ rd) :
    (s.completeNarrow n rd v ov).x[q] = s.x[q] := s.complete_x_ne _ _ h

/-- Narrowing an exact result to a width a register holds meets its claim; OV is the narrowing's own. -/
theorem State.completeNarrow_completed (s : State) {n : Nat} (hn : 0 < n) (hn64 : n ≤ 64) (rd : RegId) (v : Int) :
    Completed s (s.completeNarrow n rd v false) rd (wrap n v) (¬ InRange n v) :=
  s.complete_completed rd ((isWrap_wrap hn v).1.of_le hn64) (overflows_iff_not_inRange n v)

/-- What R121 to R124 say of a command's result, from the narrow-back it executes. -/
theorem exec_writes_wrapped {i : Instr} {s : State} {n : Nat} {rd : RegId} {v : Int} (hn : 0 < n) (hn64 : n ≤ 64)
    (h : exec i s = .next (s.completeNarrow n rd v false)) :
    ∃ t r, exec i s = .next t ∧ IsWrap n v r ∧ Completed s t rd r (¬ InRange n v) :=
  ⟨_, _, h, isWrap_wrap hn v, s.completeNarrow_completed hn hn64 rd v⟩

/-! ### The four commands of an idle unit (R121 to R124) -/

section
variable {s : State} (hidle : s.flight = none) (rd rs1 rs2 : RegId)
include hidle

theorem exec_addFx32_of_idle : exec (.addFx32 rd rs1 rs2) s =
    .next (s.completeNarrow 32 rd (Fmt.view .fx32 s.x[rs1] + Fmt.view .fx32 s.x[rs2]) false) := by
  rw [exec, execAddFx32, State.opA_of_idle hidle, State.opB_of_idle hidle]

theorem exec_addFx64_of_idle : exec (.addFx64 rd rs1 rs2) s =
    .next (s.completeNarrow 64 rd (Fmt.view .fx64 s.x[rs1] + Fmt.view .fx64 s.x[rs2]) false) := by
  rw [exec, execAddFx64, State.opA_of_idle hidle, State.opB_of_idle hidle]

theorem exec_subFx32_of_idle : exec (.subFx32 rd rs1 rs2) s =
    .next (s.completeNarrow 32 rd (Fmt.view .fx32 s.x[rs1] - Fmt.view .fx32 s.x[rs2]) false) := by
  rw [exec, execSubFx32, State.opA_of_idle hidle, State.opB_of_idle hidle]

theorem exec_subFx64_of_idle : exec (.subFx64 rd rs1 rs2) s =
    .next (s.completeNarrow 64 rd (Fmt.view .fx64 s.x[rs1] - Fmt.view .fx64 s.x[rs2]) false) := by
  rw [exec, execSubFx64, State.opA_of_idle hidle, State.opB_of_idle hidle]

end

/-- In either format a difference taken from a narrowed sum, with the same second operand, stores the view of the first. -/
theorem completeNarrow_sub_after_add (f : Fmt) {n : Nat} (hn : Fmt.width f = n) {s t : State} {rd rs1 rs2 : RegId}
    (hne : rd ≠ rs2) (ht : t = s.completeNarrow n rd (Fmt.view f s.x[rs1] + Fmt.view f s.x[rs2]) false) (rd' : RegId) :
    (t.completeNarrow n rd' (Fmt.view f t.x[rd] - Fmt.view f t.x[rs2]) false).x[rd'] =
      BitVec.ofInt 64 (Fmt.view f s.x[rs1]) := by
  subst hn
  have hsum : Fmt.view f t.x[rd] = wrap (Fmt.width f) (Fmt.view f s.x[rs1] + Fmt.view f s.x[rs2]) := by
    rw [ht, s.completeNarrow_x_self, Fmt.view_ofInt, wrap_wrap]
  have hsame : t.x[rs2] = s.x[rs2] := by rw [ht, s.completeNarrow_x_ne _ _ _ hne.symm]
  rw [t.completeNarrow_x_self, hsum, hsame, wrap_wrap_add_sub_cancel, Fmt.wrap_view]

end Sys2Proof.Machine

namespace Sys2Proof.Proofs

open Sys2Proof.Machine Sys2Proof.Claims

/-- Settles O30: the ADD's wrapped sum and the SUB's difference cancel modulo 2^N, and the first operand's view fits N bits. -/
theorem subUndoesAdd : Obligations.SubUndoesAdd := by
  intro s rd rd' rs1 rs2 hidle hne
  refine ⟨⟨_, _, exec_addFx32_of_idle hidle .., exec_subFx32_of_idle rfl .., ?_⟩,
    ⟨_, _, exec_addFx64_of_idle hidle .., exec_subFx64_of_idle rfl .., ?_⟩⟩
  · have hfits : InRange 64 (Fmt.view .fx32 s.x[rs1]) := (Fmt.inRange_view .fx32 _).of_le (by decide)
    rw [completeNarrow_sub_after_add .fx32 (n := 32) rfl hne rfl, toInt_ofInt_of_inRange hfits, low32_eq_view]
  · rw [completeNarrow_sub_after_add .fx64 (n := 64) rfl hne rfl, Fmt.view, BitVec.ofInt_toInt]

/-- Settles O6: the exact sum of the two views, narrowed back to 32 bits. -/
theorem addFx32WritesWrappedSum : Obligations.AddFx32WritesWrappedSum := by
  intro s rd rs1 rs2 hidle
  simp only [low32_eq_view]
  exact ⟨Laws.Row.addFx32 rd rs1 rs2, exec_writes_wrapped (by decide) (by decide) (exec_addFx32_of_idle hidle rd rs1 rs2)⟩

/-- Settles O7: the exact sum of the two registers, narrowed back to 64 bits. -/
theorem addFx64WritesWrappedSum : Obligations.AddFx64WritesWrappedSum := by
  intro s rd rs1 rs2 hidle
  simp only [full64_eq_view]
  exact ⟨Laws.Row.addFx64 rd rs1 rs2, exec_writes_wrapped (by decide) (by decide) (exec_addFx64_of_idle hidle rd rs1 rs2)⟩

/-- Settles O8: the exact difference of the two views, narrowed back to 32 bits. -/
theorem subFx32WritesWrappedDifference : Obligations.SubFx32WritesWrappedDifference := by
  intro s rd rs1 rs2 hidle
  simp only [low32_eq_view]
  exact ⟨Laws.Row.subFx32 rd rs1 rs2, exec_writes_wrapped (by decide) (by decide) (exec_subFx32_of_idle hidle rd rs1 rs2)⟩

/-- Settles O9: the exact difference of the two registers, narrowed back to 64 bits. -/
theorem subFx64WritesWrappedDifference : Obligations.SubFx64WritesWrappedDifference := by
  intro s rd rs1 rs2 hidle
  simp only [full64_eq_view]
  exact ⟨Laws.Row.subFx64 rd rs1 rs2, exec_writes_wrapped (by decide) (by decide) (exec_subFx64_of_idle hidle rd rs1 rs2)⟩

end Sys2Proof.Proofs
end

section
/-! PROOFS. Multiplication, division and multiply-accumulate (42_mul_div_mac.md R141 to R150, 92_eei_decisions.md D8). -/

namespace Sys2Proof.Claims

open Sys2Proof.Machine

/-! ### An integer that fits needs no narrowing (R9, R141) -/

theorem wrap_of_inRange {n : Nat} (hn : 0 < n) {v : Int} (h : InRange n v) : wrap n v = v :=
  ((isWrap_iff_eq_wrap hn v v).1 ⟨h, by simp⟩).symm

theorem overflows_eq_false_iff_inRange (n : Nat) (v : Int) : overflows n v = false ↔ InRange n v := by
  rw [← Bool.not_eq_true, overflows_iff_not_inRange, not_not]

/-- A quotient truncated toward zero lies between 0 and the dividend. -/
theorem InRange.tdiv {n : Nat} {v d : Int} (h : InRange n v) (hd : 0 ≤ d) : InRange n (tdiv v d) := by
  have hpow : (0 : Int) < 2 ^ (n - 1) := by positivity
  obtain ⟨hlo, hhi⟩ := h
  rw [Machine.tdiv]
  obtain hv | hv := le_total 0 v
  · have hle := Int.tdiv_le_self d hv
    have hnonneg := Int.tdiv_nonneg hv hd
    exact ⟨by omega, by omega⟩
  · have hneg : 0 ≤ -v := by omega
    have hle := Int.tdiv_le_self d hneg
    have hnonneg := Int.tdiv_nonneg hneg hd
    rw [Int.neg_tdiv] at hle hnonneg
    exact ⟨by omega, by omega⟩

end Sys2Proof.Claims

namespace Sys2Proof.Machine

open Sys2Proof.Claims

/-! ### FXMUL and FXDIV (R143, R150) -/

/-- FXMUL: its result and its overflow indication. -/
def fxMul (f : Fmt) (iw : Bool) (a b : Int) : Int × Bool := mulFinish f iw a b (mulWide f iw a b)

/-- FXDIV, for b ≠ 0: its result and its overflow indication. -/
def fxDiv (f : Fmt) (iw : Bool) (a b : Int) : Int × Bool := divFinish f iw a b (divWide f iw a)

theorem fxMul_isProduct (f : Fmt) (iw : Bool) (a b : Int) :
    IsProduct f iw a b (fxMul f iw a b).1 ((fxMul f iw a b).2 = true) := by
  cases f with
  | fx32 =>
    rw [IsProduct, ← tdiv_eq_towardZero]
    exact ⟨isWrap_wrap (by decide) _, overflows_iff_not_inRange 32 _⟩
  | fx64 =>
    cases iw with
    | false =>
      rw [IsProduct, ← tdiv_eq_towardZero]
      exact ⟨isWrap_wrap (by decide) _, overflows_iff_not_inRange 64 _⟩
    | true => exact ⟨_, isWrap_wrap (by decide) _, tdiv_eq_towardZero _ _, overflows_iff_not_inRange 64 _⟩

theorem fxDiv_isQuotient (f : Fmt) (iw : Bool) (a b : Int) :
    IsQuotient f iw a b (fxDiv f iw a b).1 ((fxDiv f iw a b).2 = true) := by
  cases f with
  | fx32 =>
    rw [IsQuotient, ← tdiv_eq_towardZero]
    exact ⟨isWrap_wrap (by decide) _, overflows_iff_not_inRange 32 _⟩
  | fx64 =>
    cases iw with
    | false =>
      rw [IsQuotient, ← tdiv_eq_towardZero]
      exact ⟨isWrap_wrap (by decide) _, overflows_iff_not_inRange 64 _⟩
    | true =>
      refine ⟨_, isWrap_wrap (by decide) _, ?_⟩
      rw [← tdiv_eq_towardZero, ← overflows_iff_not_inRange, ← overflows_iff_not_inRange, ← Bool.or_eq_true]
      exact ⟨isWrap_wrap (by decide) _, Iff.rfl⟩

/-- FXMUL's result fits its format, with IW64 = 1 because the narrowed product does. -/
theorem fxMul_inRange (f : Fmt) (iw : Bool) (a b : Int) : InRange (Fmt.width f) (fxMul f iw a b).1 := by
  cases f with
  | fx32 => exact (isWrap_wrap (by decide) _).1
  | fx64 =>
    cases iw with
    | false => exact (isWrap_wrap (by decide) _).1
    | true => exact (isWrap_wrap (by decide) _).1.tdiv (by decide)

theorem fxDiv_inRange (f : Fmt) (iw : Bool) (a b : Int) : InRange (Fmt.width f) (fxDiv f iw a b).1 := by
  cases f with
  | fx32 => exact (isWrap_wrap (by decide) _).1
  | fx64 => cases iw <;> exact (isWrap_wrap (by decide) _).1

theorem Fmt.width_le (f : Fmt) : Fmt.width f ≤ 64 := by cases f <;> decide

/-! ### The six commands of an idle unit (R144 to R149) -/

section
variable {s : State} (hidle : s.flight = none)
include hidle

theorem State.product_of_idle (f : Fmt) (iw : Bool) (a b : Int) : s.product f iw a b = fxMul f iw a b := by
  rw [State.product, State.widened_of_idle hidle, fxMul]

theorem State.quotient_of_idle (f : Fmt) (iw : Bool) (a b : Int) : s.quotient f iw a b = fxDiv f iw a b := by
  rw [State.quotient, State.widened_of_idle hidle, fxDiv]

theorem State.multiply_of_idle (f : Fmt) (iw : Bool) (rd : RegId) (a b : Int) :
    s.multiply f iw rd a b = s.complete rd (fxMul f iw a b).1 (fxMul f iw a b).2 := by
  rw [State.multiply, State.product_of_idle hidle]

theorem State.accumulate_of_idle (f : Fmt) (iw : Bool) (rd : RegId) (c a b : Int) :
    s.accumulate f iw rd c a b = s.completeNarrow (Fmt.width f) rd (c + (fxMul f iw a b).1) (fxMul f iw a b).2 := by
  rw [State.accumulate, State.product_of_idle hidle]

theorem State.divide_of_idle_nonzero (f : Fmt) (iw : Bool) (rd : RegId) (a : Int) {b : Int} (w : Word32) (hb : b ≠ 0) :
    s.divide f iw rd a b w = s.complete rd (fxDiv f iw a b).1 (fxDiv f iw a b).2 := by
  rw [State.divide, if_neg hb, State.quotient_of_idle hidle]

variable (rd rs1 rs2 : RegId)

theorem exec_mulFx32_of_idle : exec (.mulFx32 rd rs1 rs2) s =
    .next (s.multiply .fx32 false rd (Fmt.view .fx32 s.x[rs1]) (Fmt.view .fx32 s.x[rs2])) := by
  rw [exec, execMulFx32, State.opA_of_idle hidle, State.opB_of_idle hidle]

theorem exec_mulFx64_of_idle : exec (.mulFx64 rd rs1 rs2) s =
    .next (s.multiply .fx64 s.ctrl.iw64 rd (Fmt.view .fx64 s.x[rs1]) (Fmt.view .fx64 s.x[rs2])) := by
  rw [exec, execMulFx64, State.opA_of_idle hidle, State.opB_of_idle hidle, State.iw_of_idle hidle]

theorem exec_divFx32_of_idle : exec (.divFx32 rd rs1 rs2) s =
    .next (s.divide .fx32 false rd (Fmt.view .fx32 s.x[rs1]) (Fmt.view .fx32 s.x[rs2]) (encode (.divFx32 rd rs1 rs2))) := by
  rw [exec, execDivFx32, State.opA_of_idle hidle, State.opB_of_idle hidle]

theorem exec_divFx64_of_idle : exec (.divFx64 rd rs1 rs2) s =
    .next (s.divide .fx64 s.ctrl.iw64 rd (Fmt.view .fx64 s.x[rs1]) (Fmt.view .fx64 s.x[rs2])
      (encode (.divFx64 rd rs1 rs2))) := by
  rw [exec, execDivFx64, State.opA_of_idle hidle, State.opB_of_idle hidle, State.iw_of_idle hidle]

theorem exec_macFx32_of_idle : exec (.macFx32 rd rs1 rs2) s =
    .next (s.accumulate .fx32 false rd (Fmt.view .fx32 s.x[rd]) (Fmt.view .fx32 s.x[rs1]) (Fmt.view .fx32 s.x[rs2])) := by
  rw [exec, execMacFx32, State.opA_of_idle hidle, State.opB_of_idle hidle, State.opC_of_idle hidle]

theorem exec_macFx64_of_idle : exec (.macFx64 rd rs1 rs2) s =
    .next (s.accumulate .fx64 s.ctrl.iw64 rd (Fmt.view .fx64 s.x[rd]) (Fmt.view .fx64 s.x[rs1])
      (Fmt.view .fx64 s.x[rs2])) := by
  rw [exec, execMacFx64, State.opA_of_idle hidle, State.opB_of_idle hidle, State.opC_of_idle hidle, State.iw_of_idle hidle]

end

/-! ### What the operations claim, in either format and mode -/

section
variable {i : Instr} {s : State} (hidle : s.flight = none) {f : Fmt} {iw : Bool} {rd : RegId} {a b : Int}
include hidle

/-- What R144 and R145 say of a command's result. -/
theorem exec_writes_product (h : exec i s = .next (s.multiply f iw rd a b)) :
    ∃ t r ov, exec i s = .next t ∧ IsProduct f iw a b r ov ∧ Completed s t rd r ov := by
  rw [State.multiply_of_idle hidle] at h
  exact ⟨_, _, _, h, fxMul_isProduct f iw a b,
    s.complete_completed rd ((fxMul_inRange f iw a b).of_le (Fmt.width_le f)) Iff.rfl⟩

/-- What R146 and R147 say of a command that divides. -/
theorem exec_writes_quotient_or_faults {w : Word32} (h : exec i s = .next (s.divide f iw rd a b w)) :
    (b ≠ 0 → ∃ t r ov, exec i s = .next t ∧ IsQuotient f iw a b r ov ∧ Completed s t rd r ov) ∧
      (b = 0 → ∃ t, exec i s = .next t ∧ Faulted s t .divz w) := by
  refine ⟨fun hb => ?_, fun hb => ?_⟩
  · rw [State.divide_of_idle_nonzero hidle _ _ _ _ _ hb] at h
    exact ⟨_, _, _, h, fxDiv_isQuotient f iw a b,
      s.complete_completed rd ((fxDiv_inRange f iw a b).of_le (Fmt.width_le f)) Iff.rfl⟩
  · rw [State.divide, if_pos hb] at h
    exact ⟨_, h, s.takeFault_faulted ..⟩

/-- What R148 and R149 say of a command's result. -/
theorem exec_accumulates {n : Nat} (hn : Fmt.width f = n) {c : Int}
    (h : exec i s = .next (s.accumulate f iw rd c a b)) :
    ∃ t m ov1 r, exec i s = .next t ∧ IsProduct f iw a b m ov1 ∧ IsWrap n (c + m) r ∧
      Completed s t rd r (ov1 ∨ ¬ InRange n (c + m)) := by
  subst hn
  rw [State.accumulate_of_idle hidle] at h
  have hwrap := isWrap_wrap (Fmt.width_pos f) (c + (fxMul f iw a b).1)
  refine ⟨_, _, _, _, h, fxMul_isProduct f iw a b, hwrap, s.complete_completed rd (hwrap.1.of_le (Fmt.width_le f)) ?_⟩
  rw [Bool.or_eq_true, overflows_iff_not_inRange]

end

/-- D8: adding to `rd` a product that was first completed into another register ends as accumulating it does, in `rd` and in
STATUS. -/
theorem completeNarrow_after_complete (f : Fmt) {n : Nat} (hn : Fmt.width f = n) {s m : State} {rd tmp : RegId}
    (hne : tmp ≠ rd) {r : Int} (hr : InRange (Fmt.width f) r) {ov : Bool} (hm : m = s.complete tmp r ov) :
    let t := s.completeNarrow (Fmt.width f) rd (Fmt.view f s.x[rd] + r) ov
    let u := m.completeNarrow n rd (Fmt.view f m.x[rd] + Fmt.view f m.x[tmp]) false
    t.x[rd] = u.x[rd] ∧ t.status = u.status := by
  subst hn hm
  have hrd : (s.complete tmp r ov).x[rd] = s.x[rd] := s.complete_x_ne r ov hne.symm
  have htmp : Fmt.view f (s.complete tmp r ov).x[tmp] = r := by
    rw [s.complete_x_self, Fmt.view_ofInt, wrap_of_inRange (Fmt.width_pos f) hr]
  rw [hrd, htmp]
  dsimp only
  rw [State.completeNarrow_x_self, State.completeNarrow_x_self]
  refine ⟨rfl, ?_⟩
  simp [State.completeNarrow, Bool.or_assoc]

end Sys2Proof.Machine

namespace Sys2Proof.Proofs

open Sys2Proof.Machine Sys2Proof.Claims

/-- Settles O29: MUL leaves `rd` and puts the product, which fits its format, into `tmp`, where ADD reads it back as it is. -/
theorem macIsMulThenAdd : Obligations.MacIsMulThenAdd := by
  intro s rd rs1 rs2 tmp hidle hne
  refine ⟨⟨_, _, _, exec_macFx32_of_idle hidle .., exec_mulFx32_of_idle hidle .., exec_addFx32_of_idle rfl .., ?_⟩,
    ⟨_, _, _, exec_macFx64_of_idle hidle .., exec_mulFx64_of_idle hidle .., exec_addFx64_of_idle rfl .., ?_⟩⟩
  · rw [State.accumulate_of_idle hidle]
    exact completeNarrow_after_complete .fx32 rfl hne (fxMul_inRange ..) (State.multiply_of_idle hidle ..)
  · rw [State.accumulate_of_idle hidle]
    exact completeNarrow_after_complete .fx64 rfl hne (fxMul_inRange ..) (State.multiply_of_idle hidle ..)

/-- Settles O10: FXMUL of the two views, which fits 32 bits. -/
theorem mulFx32WritesProduct : Obligations.MulFx32WritesProduct := by
  intro s rd rs1 rs2 hidle
  simp only [low32_eq_view]
  exact ⟨Laws.Row.mulFx32 rd rs1 rs2, exec_writes_product hidle (exec_mulFx32_of_idle hidle rd rs1 rs2)⟩

/-- Settles O11: FXMUL of the two registers in the mode of CTRL.IW64. -/
theorem mulFx64WritesProduct : Obligations.MulFx64WritesProduct := by
  intro s rd rs1 rs2 hidle
  simp only [full64_eq_view]
  exact ⟨Laws.Row.mulFx64 rd rs1 rs2, exec_writes_product hidle (exec_mulFx64_of_idle hidle rd rs1 rs2)⟩

/-- Settles O12: FXDIV of the two views, or DIVZ. -/
theorem divFx32WritesQuotientOrFaultsOnZero : Obligations.DivFx32WritesQuotientOrFaultsOnZero := by
  intro s rd rs1 rs2 hidle
  simp only [low32_eq_view]
  exact ⟨Laws.Row.divFx32 rd rs1 rs2, exec_writes_quotient_or_faults hidle (exec_divFx32_of_idle hidle rd rs1 rs2)⟩

/-- Settles O13: FXDIV of the two registers in the mode of CTRL.IW64, or DIVZ in either mode. -/
theorem divFx64WritesQuotientOrFaultsOnZero : Obligations.DivFx64WritesQuotientOrFaultsOnZero := by
  intro s rd rs1 rs2 hidle
  simp only [full64_eq_view]
  exact ⟨Laws.Row.divFx64 rd rs1 rs2, exec_writes_quotient_or_faults hidle (exec_divFx64_of_idle hidle rd rs1 rs2)⟩

/-- Settles O14: FXMUL of the two views, narrowed, is added to the view of the old `rd`. -/
theorem macFx32AddsNarrowedProduct : Obligations.MacFx32AddsNarrowedProduct := by
  intro s rd rs1 rs2 hidle
  simp only [low32_eq_view]
  exact ⟨Laws.Row.macFx32 rd rs1 rs2, exec_accumulates hidle rfl (exec_macFx32_of_idle hidle rd rs1 rs2)⟩

/-- Settles O15: FXMUL of the two registers in the mode of CTRL.IW64 is added to the old `rd`. -/
theorem macFx64AddsNarrowedProduct : Obligations.MacFx64AddsNarrowedProduct := by
  intro s rd rs1 rs2 hidle
  simp only [full64_eq_view]
  exact ⟨Laws.Row.macFx64 rd rs1 rs2, exec_accumulates hidle rfl (exec_macFx64_of_idle hidle rd rs1 rs2)⟩

end Sys2Proof.Proofs
end

section
/-! PROOFS. IW64 = 1 gives the result of IW64 = 0 where no intermediate overflows (42_mul_div_mac.md R140, 43_sqrt.md R173,
90_conflicts.md C1). -/

namespace Sys2Proof.Machine

open Sys2Proof.Claims

/-! ### The two widths of the square-root engine (R170) -/

theorem Engine.run_add (k m : Nat) (e : Engine) : Engine.run (k + m) e = Engine.run m (Engine.run k e) := by
  induction k generalizing e with
  | zero => rw [Nat.zero_add, Engine.run]
  | succ k ih => rw [Nat.succ_add, Engine.run, ih, Engine.run]

/-- The alignment phase shifts `bit` and nothing else while `bit` is above the operand (R170 step 2). -/
theorem Engine.run_aligning (k m : Nat) {v : Nat} (hv : v < 2 ^ (m + 2)) :
    Engine.run k ⟨v, 0, 2 ^ (m + 2 * k), true⟩ = ⟨v, 0, 2 ^ m, true⟩ := by
  induction k with
  | zero => rfl
  | succ k ih =>
    have hgt : v < 2 ^ (m + 2 * (k + 1)) := hv.trans_le (Nat.pow_le_pow_right (by decide) (by omega))
    have hshift : 2 ^ (m + 2 * (k + 1)) >>> 2 = 2 ^ (m + 2 * k) := by
      rw [show m + 2 * (k + 1) = m + 2 * k + 2 by omega, Nat.pow_add, Nat.shiftRight_eq_div_pow,
        Nat.mul_div_cancel _ (by decide)]
    have hadvance : Engine.advance ⟨v, 0, 2 ^ (m + 2 * (k + 1)), true⟩ = ⟨v, 0, 2 ^ (m + 2 * k), true⟩ := by
      rw [← hshift]
      simp [Engine.advance, hgt]
    rw [Engine.run, hadvance, ih]

/-- On an operand of 64 bits the 128-bit engine is after 32 alignment shifts where the 64-bit engine starts. -/
theorem isqrtEngine_128_eq_64 {v : Nat} (hv : v < 2 ^ 64) : isqrtEngine 128 v = isqrtEngine 64 v := by
  have hstart (m : Nat) : engineStart (m + 2) v = ⟨v, 0, 2 ^ m, true⟩ := by
    rw [engineStart, Nat.add_sub_cancel, Nat.one_shiftLeft]
  have halign : Engine.run 32 (engineStart 128 v) = engineStart 64 v := by
    rw [hstart 126, hstart 62]
    exact Engine.run_aligning 32 62 hv
  rw [isqrtEngine, isqrtEngine, ← halign, ← Engine.run_add]

/-! ### FXMUL and FXDIV in the two modes (R143, R150) -/

theorem fxMul_wide_of_narrow {a b : Int} (h : (fxMul .fx64 true a b).2 = false) :
    fxMul .fx64 false a b = fxMul .fx64 true a b := by
  have hp : InRange 64 (a * b) := (overflows_eq_false_iff_inRange 64 _).1 h
  have hq : InRange 64 (tdiv (a * b) (Fmt.scale .fx64)) := hp.tdiv (by decide)
  have hfits (v : Int) (hv : InRange 64 v) : (!fits 64 v) = false := (overflows_eq_false_iff_inRange 64 v).2 hv
  simp only [fxMul, mulFinish, mulWide, wrap_of_inRange (by decide : 0 < 64) hp, wrap_of_inRange (by decide : 0 < 64) hq,
    hfits _ hp, hfits _ hq]

theorem fxDiv_wide_of_narrow {a b : Int} (h : (fxDiv .fx64 true a b).2 = false) :
    fxDiv .fx64 false a b = fxDiv .fx64 true a b := by
  obtain ⟨hfits, -⟩ := Bool.or_eq_false_iff.1 h
  have hn : InRange 64 (a * Fmt.scale .fx64) := (overflows_eq_false_iff_inRange 64 _).1 hfits
  simp only [fxDiv, divFinish, divWide, wrap_of_inRange (by decide : 0 < 64) hn, hfits, Bool.false_or]

/-! ### SQRT.FX64 of an idle unit (R173) -/

section
variable {s : State} (hidle : s.flight = none) (rd : RegId) {rs1 : RegId}
include hidle

theorem exec_sqrtFx64_of_negative (ha : Fmt.view .fx64 s.x[rs1] < 0) :
    exec (.sqrtFx64 rd rs1) s = .next (s.takeFault .sqrtNeg (encode (.sqrtFx64 rd rs1))) := by
  rw [exec, execSqrtFx64, State.opA_of_idle hidle, if_pos ha]

theorem exec_sqrtFx64_of_wide (ha : ¬ Fmt.view .fx64 s.x[rs1] < 0) (hiw : s.ctrl.iw64 = false) :
    exec (.sqrtFx64 rd rs1) s =
      .next (s.complete rd (isqrtEngine 128 (Fmt.view .fx64 s.x[rs1] * Fmt.scale .fx64).toNat) false) := by
  rw [exec, execSqrtFx64, State.opA_of_idle hidle, if_neg ha, State.iw_of_idle hidle, hiw, if_neg Bool.false_ne_true,
    State.root_of_idle hidle]

theorem exec_sqrtFx64_of_narrow (ha : ¬ Fmt.view .fx64 s.x[rs1] < 0) (hiw : s.ctrl.iw64 = true) :
    exec (.sqrtFx64 rd rs1) s =
      if wrap 64 (Fmt.view .fx64 s.x[rs1] * Fmt.scale .fx64) < 0 then
        .next (s.takeFault .sqrtOvf (encode (.sqrtFx64 rd rs1)))
      else
        .next (s.complete rd (isqrtEngine 64 (wrap 64 (Fmt.view .fx64 s.x[rs1] * Fmt.scale .fx64)).toNat)
          (overflows 64 (Fmt.view .fx64 s.x[rs1] * Fmt.scale .fx64))) := by
  rw [exec, execSqrtFx64, State.opA_of_idle hidle, if_neg ha, State.iw_of_idle hidle, hiw, if_pos rfl]
  dsimp only
  rw [State.root_of_idle hidle]

end

/-! ### A command in the two modes -/

/-- The same state with CTRL.IW64 = 0. -/
def State.wideMode (s : State) : State := { s with ctrl := { s.ctrl with iw64 := false } }

/-- OV is sticky (R26): a completion after which it is 0 indicated no overflow. -/
theorem State.ov_eq_false_of_complete {s : State} {rd : RegId} {r : Int} {ov : Bool}
    (h : (s.complete rd r ov).status.ov = false) : ov = false := (Bool.or_eq_false_iff.1 h).2

section
variable {s : State} (hidle : s.flight = none) {rd : RegId} {a b : Int} {w : Word32}
include hidle

theorem multiply_endAlike_wideMode (h : (s.multiply .fx64 true rd a b).status.ov = false) :
    EndAlike rd w s s.wideMode (.next (s.multiply .fx64 true rd a b)) (.next (s.wideMode.multiply .fx64 false rd a b)) := by
  rw [State.multiply_of_idle hidle] at h ⊢
  rw [State.multiply_of_idle (s := s.wideMode) hidle, fxMul_wide_of_narrow (State.ov_eq_false_of_complete h)]
  exact .completed ..

theorem accumulate_endAlike_wideMode {c : Int} (h : (s.accumulate .fx64 true rd c a b).status.ov = false) :
    EndAlike rd w s s.wideMode (.next (s.accumulate .fx64 true rd c a b))
      (.next (s.wideMode.accumulate .fx64 false rd c a b)) := by
  rw [State.accumulate_of_idle hidle] at h ⊢
  obtain ⟨hmul, -⟩ := Bool.or_eq_false_iff.1 (State.ov_eq_false_of_complete h)
  rw [State.accumulate_of_idle (s := s.wideMode) hidle, fxMul_wide_of_narrow hmul]
  exact .completed ..

theorem divide_endAlike_wideMode (h : (s.divide .fx64 true rd a b w).status.ov = false) :
    EndAlike rd w s s.wideMode (.next (s.divide .fx64 true rd a b w)) (.next (s.wideMode.divide .fx64 false rd a b w)) := by
  by_cases hb : b = 0
  · rw [State.divide, State.divide, if_pos hb, if_pos hb]
    exact .faulted ..
  · rw [State.divide_of_idle_nonzero hidle _ _ _ _ _ hb] at h ⊢
    rw [State.divide_of_idle_nonzero (s := s.wideMode) hidle _ _ _ _ _ hb,
      fxDiv_wide_of_narrow (State.ov_eq_false_of_complete h)]
    exact .completed ..

/-- Without SQRT_OVF and OV the pre-scaled operand is exact in 64 bits, and both engines answer the same on it. -/
theorem exec_sqrtFx64_endAlike_wideMode {rs1 : RegId} {t : State} (hiw : s.ctrl.iw64 = true)
    (h : exec (.sqrtFx64 rd rs1) s = .next t) (herr : t.status.err = false) (hov : t.status.ov = false) :
    EndAlike rd (encode (.sqrtFx64 rd rs1)) s s.wideMode (exec (.sqrtFx64 rd rs1) s) (exec (.sqrtFx64 rd rs1) s.wideMode) := by
  by_cases ha : Fmt.view .fx64 s.x[rs1] < 0
  · rw [exec_sqrtFx64_of_negative hidle rd ha, exec_sqrtFx64_of_negative (s := s.wideMode) hidle rd ha]
    exact .faulted ..
  · have hnarrow := exec_sqrtFx64_of_narrow hidle rd ha hiw
    rw [exec_sqrtFx64_of_wide (s := s.wideMode) hidle rd ha rfl]
    split at hnarrow
    · cases hnarrow.symm.trans h
      exact absurd herr (by simp)
    · cases hnarrow.symm.trans h
      have hexact := (overflows_eq_false_iff_inRange 64 _).1 (State.ov_eq_false_of_complete hov)
      have hlt : (Fmt.view .fx64 s.x[rs1] * Fmt.scale .fx64).toNat < 2 ^ 64 := by
        obtain ⟨-, hhi⟩ := hexact
        omega
      rw [hnarrow, wrap_of_inRange (by decide) hexact, (overflows_eq_false_iff_inRange 64 _).2 hexact,
        ← isqrtEngine_128_eq_64 hlt]
      exact .completed ..

/-- A command that completes with IW64 = 1 and OV = 0 ends alike with IW64 = 0. -/
theorem exec_endAlike_wideMode {i : Instr} {t : State} (hiw : s.ctrl.iw64 = true) (h : exec i s = .next t)
    (herr : t.status.err = false) (hov : t.status.ov = false) :
    EndAlike i.dest (encode i) s s.wideMode (exec i s) (exec i s.wideMode) := by
  cases i with
  | addFx32 | subFx32 | mulFx32 | divFx32 | macFx32 | sqrtFx32 =>
    exact exec_fx32_endAlike trivial hidle hidle (fun _ => rfl)
  | addFx64 rd rs1 rs2 =>
    rw [exec_addFx64_of_idle hidle, exec_addFx64_of_idle (s := s.wideMode) hidle]
    exact .completed ..
  | subFx64 rd rs1 rs2 =>
    rw [exec_subFx64_of_idle hidle, exec_subFx64_of_idle (s := s.wideMode) hidle]
    exact .completed ..
  | mulFx64 rd rs1 rs2 =>
    rw [exec_mulFx64_of_idle hidle, hiw] at h ⊢
    rw [exec_mulFx64_of_idle (s := s.wideMode) hidle]
    cases h
    exact multiply_endAlike_wideMode hidle hov
  | divFx64 rd rs1 rs2 =>
    rw [exec_divFx64_of_idle hidle, hiw] at h ⊢
    rw [exec_divFx64_of_idle (s := s.wideMode) hidle]
    cases h
    exact divide_endAlike_wideMode hidle hov
  | macFx64 rd rs1 rs2 =>
    rw [exec_macFx64_of_idle hidle, hiw] at h ⊢
    rw [exec_macFx64_of_idle (s := s.wideMode) hidle]
    cases h
    exact accumulate_endAlike_wideMode hidle hov
  | sqrtFx64 rd rs1 => exact exec_sqrtFx64_endAlike_wideMode hidle hiw h herr hov
  | scale rd idx =>
    simp only [exec, execScale]
    split
    · exact .completed ..
    · exact .faulted ..

end

end Sys2Proof.Machine

namespace Sys2Proof.Proofs

open Sys2Proof.Machine

/-- Settles O28: the two executions end alike, and states that differ in CTRL only are then completed to the same registers and
STATUS. -/
theorem narrowModeAgreesUnlessOverflow : Obligations.NarrowModeAgreesUnlessOverflow := by
  intro i s t hidle _ _ hiw h herr hov
  have halike := exec_endAlike_wideMode hidle hiw h herr hov
  obtain ⟨t', ht', -⟩ := exec_ends i s.wideMode
  rw [h, ht'] at halike
  refine ⟨t', ht', ?_⟩
  cases halike with
  | completed r ov => exact ⟨rfl, rfl⟩
  | faulted c => exact absurd herr (by simp)

end Sys2Proof.Proofs
end

section
/-! PROOFS. The square-root engine: what it computes, in how many shifts, in which range (43_sqrt.md R170, R171). -/

namespace Sys2Proof.Machine

open Sys2Proof.Claims

/-! ### One shift of `bit` (R170) -/

theorem Engine.advance_bit (e : Engine) : e.advance.bit = e.bit >>> 2 := by
  rw [Engine.advance]
  split
  case isTrue hzero => rw [hzero, Nat.zero_shiftRight]
  case isFalse =>
    split
    · rfl
    · dsimp only
      split <;> rfl

theorem Engine.run_bit (k : Nat) (e : Engine) : (Engine.run k e).bit = e.bit >>> (2 * k) := by
  induction k with
  | zero => rfl
  | succ k ih => rw [Engine.run_succ_eq_advance, Engine.advance_bit, ih, ← Nat.shiftRight_add, Nat.mul_succ]

/-- A shift that subtracts nothing, in either phase: while `ans` is still 0 an alignment shift is a main-loop iteration whose
candidate does not fit. -/
theorem Engine.advance_of_lt {e : Engine} (hbit : e.bit ≠ 0) (hans : e.aligning = true → e.ans = 0)
    (hlt : e.rem < e.ans + e.bit) : e.advance = { e with ans := e.ans >>> 1, bit := e.bit >>> 2 } := by
  obtain ⟨rem, ans, bit, aligning⟩ := e
  dsimp only at hbit hans hlt
  cases aligning with
  | true =>
    obtain rfl := hans rfl
    have hgt : bit > rem := by omega
    simp [Engine.advance, hbit, hgt]
  | false => simp [Engine.advance, hbit, Nat.not_le.2 hlt]

/-- A shift that subtracts the candidate: `bit` is then not above `rem`, so that the engine aligns no longer. -/
theorem Engine.advance_of_le {e : Engine} (hbit : e.bit ≠ 0) (hle : e.ans + e.bit ≤ e.rem) :
    e.advance = ⟨e.rem - (e.ans + e.bit), (e.ans >>> 1) + e.bit, e.bit >>> 2, false⟩ := by
  have hnot : ¬ e.bit > e.rem := by omega
  simp [Engine.advance, hbit, hnot, hle]

/-! ### What the engine holds (R171) -/

theorem engineStart_bit (w v : Nat) : (engineStart w v).bit = 2 ^ (w - 2) := Nat.one_shiftLeft _

/-- The engine's values on the input `v` with `n` shifts to go: `q`, the floor root of `v / 4 ^ n`, is the root's digits found so
far, `ans` is `q` in its place, and `rem` is what the square of `q` leaves of `v`. While the engine aligns, no digit is set. -/
structure Engine.HoldsRoot (v n q : Nat) (e : Engine) : Prop where
  bit_eq : e.bit = 4 ^ n / 4
  ans_eq : e.ans = q * 4 ^ n
  rem_eq : e.rem + q * q * 4 ^ n = v
  lt_next : v < (q + 1) * (q + 1) * 4 ^ n
  aligning : e.aligning = true → q = 0

theorem engineStart_holdsRoot {m v : Nat} (hv : v < 4 ^ (m + 1)) : (engineStart (2 * (m + 1)) v).HoldsRoot v (m + 1) 0 where
  bit_eq := by
    rw [engineStart_bit, Nat.pow_succ, Nat.mul_div_cancel _ (by decide), Nat.mul_succ, Nat.add_sub_cancel, Nat.pow_mul]
  ans_eq := (Nat.zero_mul _).symm
  rem_eq := by simp [engineStart]
  lt_next := by simpa using hv
  aligning _ := rfl

/-- A shift finds the root's next digit, 1 exactly if the candidate fits: `(2q + 1)² = (2q)² + (4q + 1)`. -/
theorem Engine.HoldsRoot.advance_succ {v n q : Nat} {e : Engine} (h : e.HoldsRoot v (n + 1) q) :
    ∃ q', e.advance.HoldsRoot v n q' := by
  obtain ⟨hbit, hans, hrem, hlt, halign⟩ := h
  rw [Nat.pow_succ] at hbit hans hrem hlt
  rw [Nat.mul_div_cancel _ (by decide)] at hbit
  have hpos : e.bit ≠ 0 := hbit ▸ (Nat.pow_pos (by decide)).ne'
  have hshift : e.bit >>> 2 = 4 ^ n / 4 := by rw [hbit, Nat.shiftRight_eq_div_pow]
  have hhalf : e.ans >>> 1 = 2 * q * 4 ^ n := by
    rw [hans, Nat.shiftRight_one, show q * (4 ^ n * 4) = 2 * q * 4 ^ n * 2 by ring, Nat.mul_div_cancel _ (by decide)]
  obtain hfits | hfits := Nat.lt_or_ge e.rem (e.ans + e.bit)
  · have hzero (ha : e.aligning = true) : e.ans = 0 := by rw [hans, halign ha, Nat.zero_mul]
    refine ⟨2 * q, ?_⟩
    rw [Engine.advance_of_lt hpos hzero hfits]
    exact ⟨hshift, hhalf, by linarith, by linarith, fun ha => by rw [halign ha]⟩
  · obtain ⟨rest, hrest⟩ := Nat.exists_eq_add_of_le hfits
    refine ⟨2 * q + 1, ?_⟩
    rw [Engine.advance_of_le hpos hfits, hrest, Nat.add_sub_cancel_left]
    exact ⟨hshift, by dsimp only; linarith, by dsimp only; linarith, by linarith, by simp⟩

/-- A shift of a stopped engine changes nothing. -/
theorem Engine.HoldsRoot.advance_zero {v q : Nat} {e : Engine} (h : e.HoldsRoot v 0 q) : e.advance = e := by
  have hzero : e.bit = 0 := h.bit_eq
  rw [Engine.advance, if_pos hzero]

theorem Engine.HoldsRoot.advance {v n q : Nat} {e : Engine} (h : e.HoldsRoot v n q) :
    ∃ q', e.advance.HoldsRoot v (n - 1) q' := by
  cases n with
  | zero => exact ⟨q, h.advance_zero.symm ▸ h⟩
  | succ n => exact h.advance_succ

theorem run_engineStart_holdsRoot {m v : Nat} (hv : v < 4 ^ (m + 1)) (k : Nat) :
    ∃ q, (Engine.run k (engineStart (2 * (m + 1)) v)).HoldsRoot v (m + 1 - k) q := by
  induction k with
  | zero => exact ⟨0, engineStart_holdsRoot hv⟩
  | succ k ih =>
    obtain ⟨q, h⟩ := ih
    rw [Engine.run_succ_eq_advance]
    exact h.advance

/-! ### The two widths (R6) -/

theorem width_eq_two_mul_succ {w : Nat} (hw : w = 64 ∨ w = 128) : ∃ m, w = 2 * (m + 1) := by
  obtain rfl | rfl := hw
  · exact ⟨31, rfl⟩
  · exact ⟨63, rfl⟩

/-- A width's bound is twice the engine's starting `bit`. -/
theorem two_pow_width_sub_one (m : Nat) : 2 ^ (2 * (m + 1) - 1) = 2 * 4 ^ m := by
  rw [show 2 * (m + 1) - 1 = 2 * m + 1 by omega, Nat.pow_succ, Nat.pow_mul, Nat.mul_comm]

theorem lt_four_pow_of_lt_width {m v : Nat} (hv : v < 2 ^ (2 * (m + 1) - 1)) : v < 4 ^ (m + 1) := by
  rw [two_pow_width_sub_one] at hv
  rw [Nat.pow_succ]
  omega

/-- Of `m + 1` shifts at least one has been made: `q * q * 4 ^ n` is at most the input, and `4 * q ≤ q * q + 4` carries that bound
over to `ans`. -/
theorem Engine.HoldsRoot.candidate_lt {v n q m : Nat} {e : Engine} (h : e.HoldsRoot v n q) (hn : n ≤ m)
    (hv : v < 2 * 4 ^ m) : e.ans + e.bit < 2 * 4 ^ m := by
  have hrem := h.rem_eq
  have hpow : 4 ^ n ≤ 4 ^ m := Nat.pow_le_pow_right (by decide) hn
  have hq : 4 * q ≤ q * q + 4 := by nlinarith [sq_nonneg ((q : Int) - 2)]
  have hans := Nat.mul_le_mul_right (4 ^ n) hq
  rw [Nat.mul_assoc, Nat.add_mul] at hans
  have hpos : 0 < 4 ^ m := Nat.pow_pos (by decide)
  rw [h.ans_eq, h.bit_eq]
  omega

/-- Before the first shift `ans` is 0 and the candidate is the starting `bit`. -/
theorem run_engineStart_candidate_lt {m v : Nat} (hv : v < 2 ^ (2 * (m + 1) - 1)) (k : Nat) :
    (Engine.run k (engineStart (2 * (m + 1)) v)).ans + (Engine.run k (engineStart (2 * (m + 1)) v)).bit <
      2 ^ (2 * (m + 1) - 1) := by
  have hlt := lt_four_pow_of_lt_width hv
  rw [two_pow_width_sub_one] at hv ⊢
  cases k with
  | zero =>
    have h := engineStart_holdsRoot hlt
    have hpos : 0 < 4 ^ m := Nat.pow_pos (by decide)
    rw [Engine.run, h.ans_eq, h.bit_eq, Nat.pow_succ]
    omega
  | succ k =>
    obtain ⟨q, h⟩ := run_engineStart_holdsRoot hlt (k + 1)
    exact h.candidate_lt (by omega) hv

theorem isqrtEngine_isFloorRoot {w v : Nat} (hw : w = 64 ∨ w = 128) (hv : v < 2 ^ (w - 1)) :
    IsFloorRoot v (isqrtEngine w v) := by
  obtain ⟨m, rfl⟩ := width_eq_two_mul_succ hw
  obtain ⟨q, h⟩ := run_engineStart_holdsRoot (lt_four_pow_of_lt_width hv) (m + 1)
  rw [Nat.sub_self] at h
  obtain ⟨-, hans, hrem, hlt, -⟩ := h
  rw [Nat.pow_zero, Nat.mul_one] at hans hrem hlt
  rw [isqrtEngine, Nat.mul_div_cancel_left _ (by decide), hans]
  have hsq : q * q ≤ v := hrem ▸ Nat.le_add_left ..
  exact ⟨Int.natCast_nonneg q, by exact_mod_cast hsq, by exact_mod_cast hlt⟩

end Sys2Proof.Machine

namespace Sys2Proof.Proofs

open Sys2Proof.Machine

/-- Settles O18: with no shift to go, what the engine holds is the floor root. -/
theorem engineComputesFloorRoot : Obligations.EngineComputesFloorRoot := fun _ _ hw hv => isqrtEngine_isFloorRoot hw hv

/-- Settles O19: every shift divides `bit` by 4, whatever the input and the phase. -/
theorem engineMakesExactlyHalfWidthShifts : Obligations.EngineMakesExactlyHalfWidthShifts := by
  intro w v hw
  simp only [Engine.run_bit, engineStart_bit, Nat.shiftRight_eq_div_pow]
  refine ⟨fun k hk => Nat.pow_div (by omega) (by decide), fun k hk => ?_⟩
  exact Nat.div_eq_of_lt (Nat.pow_lt_pow_right (by decide) (by omega))

/-- Settles O20: `rem` never exceeds the input, and `ans` never the candidate. -/
theorem engineValuesStayInWidth : Obligations.EngineValuesStayInWidth := by
  intro w v k hw hv
  obtain ⟨m, rfl⟩ := width_eq_two_mul_succ hw
  obtain ⟨q, h⟩ := run_engineStart_holdsRoot (lt_four_pow_of_lt_width hv) k
  have hcandidate := run_engineStart_candidate_lt hv k
  have hrem := h.rem_eq
  exact ⟨by omega, by omega, hcandidate⟩

end Sys2Proof.Proofs
end

section
/-! PROOFS. The square-root commands SQRT.FX32 and SQRT.FX64 (43_sqrt.md R172 to R174). -/

namespace Sys2Proof.Claims

/-- A bound on the operand bounds its floor root. -/
theorem IsFloorRoot.le_of_lt {v r b : Int} (h : IsFloorRoot v r) (hb : 0 ≤ b) (hv : v < (b + 1) * (b + 1)) : r ≤ b := by
  obtain ⟨-, hsq, -⟩ := h
  exact Int.le_of_lt_add_one (lt_of_mul_self_lt_mul_self₀ (by omega) (hsq.trans_lt hv))

end Sys2Proof.Claims

namespace Sys2Proof.Machine

open Sys2Proof.Claims

/-! ### SQRT of an idle unit (R172, R173) -/

/-- What R172 and R173 say of a command's result: the engine's answer on a pre-scaled operand it has the width for. -/
theorem exec_writes_root {i : Instr} {s : State} {rd : RegId} {w : Nat} {v b : Int} {ov : Bool} {p : Prop}
    (h : exec i s = .next (s.complete rd (isqrtEngine w v.toNat) ov)) (hw : w = 64 ∨ w = 128) (h0 : 0 ≤ v)
    (hv : v < 2 ^ (w - 1)) (hb0 : 0 ≤ b) (hb : b < 2 ^ 63) (hvb : v < (b + 1) * (b + 1)) (hov : ov = true ↔ p) :
    ∃ t r, exec i s = .next t ∧ IsFloorRoot v r ∧ r ≤ b ∧ Completed s t rd r p := by
  obtain ⟨n, rfl⟩ := Int.eq_ofNat_of_zero_le h0
  have hroot : IsFloorRoot n (isqrtEngine w n) := isqrtEngine_isFloorRoot hw (by exact_mod_cast hv)
  have hle := hroot.le_of_lt hb0 hvb
  have hfits : InRange 64 (isqrtEngine w n : Int) := ⟨by omega, by omega⟩
  exact ⟨_, _, h, hroot, hle, s.complete_completed rd hfits hov⟩

section
variable {s : State} (hidle : s.flight = none) (rd : RegId) {rs1 : RegId}
include hidle

theorem exec_sqrtFx32_of_negative (ha : Fmt.view .fx32 s.x[rs1] < 0) :
    exec (.sqrtFx32 rd rs1) s = .next (s.takeFault .sqrtNeg (encode (.sqrtFx32 rd rs1))) := by
  rw [exec, execSqrtFx32, State.opA_of_idle hidle, if_pos ha]

theorem exec_sqrtFx32_of_nonneg (ha : 0 ≤ Fmt.view .fx32 s.x[rs1]) :
    exec (.sqrtFx32 rd rs1) s = .next (s.complete rd (isqrtEngine 64 (Fmt.view .fx32 s.x[rs1] * 1000).toNat) false) := by
  rw [exec, execSqrtFx32, State.opA_of_idle hidle, if_neg (Int.not_lt.2 ha), State.root_of_idle hidle, Fmt.scale]

end

end Sys2Proof.Machine

namespace Sys2Proof.Proofs

open Sys2Proof.Machine Sys2Proof.Claims

/-- Settles O16: the engine's answer on a view times 1000, which is in the 64-bit engine's range, or SQRT_NEG. -/
theorem sqrtFx32WritesFloorRootOrFaults : Obligations.SqrtFx32WritesFloorRootOrFaults := by
  intro s rd rs1 hidle
  simp only [low32_eq_view]
  refine ⟨Laws.Row.sqrtFx32 rd rs1, fun ha => ?_, fun ha => ⟨_, exec_sqrtFx32_of_negative hidle rd ha, s.takeFault_faulted ..⟩⟩
  obtain ⟨-, hhi⟩ := Fmt.inRange_view .fx32 s.x[rs1]
  rw [Fmt.width] at hhi
  exact exec_writes_root (v := Fmt.view .fx32 s.x[rs1] * 1000) (exec_sqrtFx32_of_nonneg hidle rd ha) (.inl rfl)
    (by omega) (by omega) (by decide) (by decide) (by omega) Bool.false_eq_true.to_iff

/-- Settles O17: IW64 = 0 has the 128-bit engine for the exact product; IW64 = 1 has the wrapped product, which is in the 64-bit
engine's range unless it is negative. -/
theorem sqrtFx64WritesFloorRootOrFaults : Obligations.SqrtFx64WritesFloorRootOrFaults := by
  intro s rd rs1 hidle
  simp only [full64_eq_view]
  refine ⟨Laws.Row.sqrtFx64 rd rs1, fun ha => ⟨_, exec_sqrtFx64_of_negative hidle rd ha, s.takeFault_faulted ..⟩,
    fun ha hiw => ?_, fun ha hiw scaledX hwrap => ?_⟩
  · obtain ⟨-, hhi⟩ := Fmt.inRange_view .fx64 s.x[rs1]
    rw [Fmt.width] at hhi
    exact exec_writes_root (v := Fmt.view .fx64 s.x[rs1] * 1000000) (exec_sqrtFx64_of_wide hidle rd (Int.not_lt.2 ha) hiw)
      (.inr rfl) (by omega) (by omega) (by decide) (by decide) (by omega) Bool.false_eq_true.to_iff
  · obtain ⟨-, hhi⟩ := hwrap.1
    have hscaled : scaledX = wrap 64 (Fmt.view .fx64 s.x[rs1] * Fmt.scale .fx64) :=
      (isWrap_iff_eq_wrap (by decide) _ _).1 hwrap
    have hexec := exec_sqrtFx64_of_narrow hidle rd (Int.not_lt.2 ha) hiw
    rw [← hscaled] at hexec
    refine ⟨fun hneg => ?_, fun hnonneg => ?_⟩
    · exact ⟨_, hexec.trans (if_pos hneg), s.takeFault_faulted ..⟩
    · obtain ⟨t, r, ht, hroot, -, hdone⟩ := exec_writes_root (b := 2 ^ 63 - 1)
        (hexec.trans (if_neg (Int.not_lt.2 hnonneg))) (.inl rfl) hnonneg (by omega) (by decide) (by decide) (by omega)
        (overflows_iff_not_inRange 64 _)
      exact ⟨t, r, ht, hroot, hdone⟩

end Sys2Proof.Proofs
end

section
/-! PROOFS. Every command completes or faults, and which operands raise which cause (60_exceptions.md R200 to R208). -/

namespace Sys2Proof.Machine

open Sys2Proof.Claims

/-! ### The two ends of a command (R200) -/

/-- A completion stores its result modulo 2^64 (R10), so it is the completion with the integer the register then shows. -/
theorem State.complete_eq_complete_stored (s : State) (rd : RegId) (r : Int) (ov : Bool) :
    s.complete rd r ov = s.complete rd (BitVec.ofInt 64 r).toInt ov := by
  rw [State.complete, State.complete, BitVec.ofInt_toInt]

theorem EndsCommand.completed_or_faulted {rd : RegId} {w : Word32} {s t : State} (he : EndsCommand rd w s t) :
    (∃ r ov, Completed s t rd r ov) ∨ ∃ c, c ≠ .none ∧ Faulted s t c w := by
  obtain ⟨r, ov, rfl⟩ | ⟨c, hc, rfl⟩ := he
  · rw [s.complete_eq_complete_stored]
    exact .inl ⟨_, _, s.complete_completed rd (inRange_toInt _) Iff.rfl⟩
  · exact .inr ⟨c, hc, s.takeFault_faulted c w⟩

/-! ### The cause that the operands of a command raise (R203 to R206, R208) -/

/-- The cause an idle unit's operands raise; `none` where the command completes. -/
def operandCause (i : Instr) (s : State) : Cause :=
  match i with
  | .addFx32 _ _ _ | .addFx64 _ _ _ | .subFx32 _ _ _ | .subFx64 _ _ _ => .none
  | .mulFx32 _ _ _ | .mulFx64 _ _ _ | .macFx32 _ _ _ | .macFx64 _ _ _ => .none
  | .divFx32 _ _ rs2 => if low32 s rs2 = 0 then .divz else .none
  | .divFx64 _ _ rs2 => if full64 s rs2 = 0 then .divz else .none
  | .sqrtFx32 _ rs1 => if low32 s rs1 < 0 then .sqrtNeg else .none
  | .sqrtFx64 _ rs1 =>
    if full64 s rs1 < 0 then .sqrtNeg
    else if s.ctrl.iw64 = true then if wrap 64 (full64 s rs1 * 1000000) < 0 then .sqrtOvf else .none
    else .none
  | .scale _ idx => if 18 < idx then .scaleRange else .none

theorem State.divide_cause {s : State} (hcause : s.status.cause = .none) (f : Fmt) (iw : Bool) (rd : RegId) (a b : Int)
    (w : Word32) : (s.divide f iw rd a b w).status.cause = if b = 0 then .divz else .none := by
  unfold State.divide
  split
  · rfl
  · exact hcause

theorem exec_scale_cause {s t : State} (hcause : s.status.cause = .none) {rd : RegId} {idx : Nat}
    (h : exec (.scale rd idx) s = .next t) : t.status.cause = operandCause (.scale rd idx) s := by
  rw [operandCause]
  rw [exec] at h
  split
  case isTrue hgt =>
    rw [execScale_of_no_entry (romEntry_of_gt hgt)] at h
    cases h; rfl
  case isFalse hle =>
    obtain ⟨v, hentry, -⟩ := romEntry_of_le (Nat.not_lt.1 hle)
    rw [execScale_of_entry hentry] at h
    cases h; exact hcause

section
variable {s t : State} (hidle : s.flight = none) (hcause : s.status.cause = .none) {rd : RegId}
include hidle hcause

theorem exec_sqrtFx32_cause {rs1 : RegId} (h : exec (.sqrtFx32 rd rs1) s = .next t) :
    t.status.cause = operandCause (.sqrtFx32 rd rs1) s := by
  rw [operandCause, low32_eq_view]
  split
  case isTrue hneg =>
    rw [exec_sqrtFx32_of_negative hidle rd hneg] at h
    cases h; rfl
  case isFalse hneg =>
    rw [exec_sqrtFx32_of_nonneg hidle rd (Int.not_lt.1 hneg)] at h
    cases h; exact hcause

theorem exec_sqrtFx64_cause {rs1 : RegId} (h : exec (.sqrtFx64 rd rs1) s = .next t) :
    t.status.cause = operandCause (.sqrtFx64 rd rs1) s := by
  rw [operandCause, full64_eq_view]
  split
  case isTrue hneg =>
    rw [exec_sqrtFx64_of_negative hidle rd hneg] at h
    cases h; rfl
  case isFalse hneg =>
    split
    case isFalse hiw =>
      rw [exec_sqrtFx64_of_wide hidle rd hneg (Bool.eq_false_iff.2 hiw)] at h
      cases h; exact hcause
    case isTrue hiw =>
      rw [exec_sqrtFx64_of_narrow hidle rd hneg hiw, Fmt.scale] at h
      split at h
      case isTrue hscaled =>
        cases h
        exact (if_pos hscaled).symm
      case isFalse hscaled =>
        cases h
        exact hcause.trans (if_neg hscaled).symm

/-- The cause a command leaves is the one its operands raise. -/
theorem exec_cause {i : Instr} (h : exec i s = .next t) : t.status.cause = operandCause i s := by
  cases i with
  | addFx32 | addFx64 | subFx32 | subFx64 | mulFx32 | mulFx64 | macFx32 | macFx64 => cases h; exact hcause
  | divFx32 rd rs1 rs2 =>
    rw [exec_divFx32_of_idle hidle] at h
    cases h
    rw [State.divide_cause hcause, operandCause, low32_eq_view]
  | divFx64 rd rs1 rs2 =>
    rw [exec_divFx64_of_idle hidle] at h
    cases h
    rw [State.divide_cause hcause, operandCause, full64_eq_view]
  | sqrtFx32 rd rs1 => exact exec_sqrtFx32_cause hidle hcause h
  | sqrtFx64 rd rs1 => exact exec_sqrtFx64_cause hidle hcause h
  | scale rd idx => exact exec_scale_cause hcause h

end

/-! ### Each cause and its condition (R201) -/

theorem operandCause_ne_illegal (i : Instr) (s : State) : operandCause i s ≠ .illegal := by
  unfold operandCause
  repeat' split
  all_goals decide


section
variable (i : Instr) (s : State)

theorem operandCause_eq_divz_iff : operandCause i s = .divz ↔
    ∃ rd rs1 rs2, (i = .divFx32 rd rs1 rs2 ∧ low32 s rs2 = 0) ∨ (i = .divFx64 rd rs1 rs2 ∧ full64 s rs2 = 0) := by
  cases i <;> simp [operandCause, ite_eq_iff]

theorem operandCause_eq_sqrtNeg_iff : operandCause i s = .sqrtNeg ↔
    ∃ rd rs1, (i = .sqrtFx32 rd rs1 ∧ low32 s rs1 < 0) ∨ (i = .sqrtFx64 rd rs1 ∧ full64 s rs1 < 0) := by
  cases i <;> simp [operandCause, ite_eq_iff]

theorem operandCause_eq_scaleRange_iff : operandCause i s = .scaleRange ↔ ∃ rd idx, i = .scale rd idx ∧ 18 < idx := by
  cases i <;> simp [operandCause, ite_eq_iff]

/-- R206 speaks of the one wrapped product. -/
theorem operandCause_eq_sqrtOvf_iff : operandCause i s = .sqrtOvf ↔
    ∃ rd rs1 p, i = .sqrtFx64 rd rs1 ∧ s.ctrl.iw64 = true ∧ 0 ≤ full64 s rs1 ∧ IsWrap 64 (full64 s rs1 * 1000000) p ∧
      p < 0 := by
  have hwrap (v p : Int) : IsWrap 64 v p ↔ p = wrap 64 v := isWrap_iff_eq_wrap (by decide) v p
  simp only [hwrap]
  cases i <;> simp [operandCause, ite_eq_iff, and_left_comm]

end

end Sys2Proof.Machine

namespace Sys2Proof.Proofs

open Sys2Proof.Machine Sys2Proof.Claims

/-- Settles O24: the inversion of `exec`; a completion shows what it stored. -/
theorem everyCommandCompletesOrFaults : Obligations.EveryCommandCompletesOrFaults := by
  intro i s
  obtain ⟨t, ht, hends⟩ := exec_ends i s
  exact ⟨t, ht, hends.completed_or_faulted⟩

/-- Settles O26: the cause left is the operands' own, whose conditions are said once above; ERR goes with CAUSE. -/
theorem faultCausesAreRaisedExactlyWhen : Obligations.FaultCausesAreRaisedExactlyWhen := by
  intro i s t _ hidle herr hcause hexec
  have hmatch : t.CauseMatchesErr := (exec_next hexec).causeMatchesErr (iff_of_true hcause herr)
  refine ⟨hmatch.symm, ?_⟩
  rw [exec_cause hidle hcause hexec]
  exact ⟨operandCause_ne_illegal i s, operandCause_eq_divz_iff i s, operandCause_eq_sqrtNeg_iff i s,
    operandCause_eq_scaleRange_iff i s, operandCause_eq_sqrtOvf_iff i s⟩

end Sys2Proof.Proofs
end

section
/-! PROOFS. Which state a step reaches: the one way it stops, and the command it runs (60_exceptions.md R209, R211, R218;
70_reset_and_hazards.md R247). -/

namespace Sys2Proof.Machine

open Sys2Proof.Claims

/-! ### What a step does where no access is just being let go -/

section
variable {s : State} (hrel : releasedAccess s = none)
include hrel

theorem step_scheduled_of_not_released {turn : Turn} {ts : List Turn} (hsched : s.schedule = turn :: ts) :
    step s = takeTurn false turn { s with schedule := ts } := by
  simp only [step, hrel, hsched]

/-- The synchronous reading (R243; log 4). -/
theorem step_synchronous_of_not_released (hsched : s.schedule = []) : step s = takeTurn true (defaultTurn s) s := by
  simp only [step, hrel, hsched]

end

theorem releasedAccess_of_not_running {s : State} (h : s.power ≠ .running) : releasedAccess s = none := by
  simp [releasedAccess, h]

theorem defaultTurn_of_idle {s : State} (h : s.flight = none) : defaultTurn s = .host := by
  simp [defaultTurn, State.busy, h]

theorem defaultTurn_of_busy {s : State} (h : s.busy = true) : defaultTurn s = .fxu := by
  simp [defaultTurn, h]

/-! ### The one way a step stops (R218; log 10) -/

theorem hostTurn_stops (atomic : Bool) {s : State} (hoff : s.power = .off) (hacc : s.accesses ≠ []) :
    hostTurn atomic s = .fault .accessWhilePoweredDown := by
  obtain ⟨a, rest, hcons⟩ := List.exists_cons_of_ne_nil hacc
  simp only [hostTurn, hcons, hoff]

theorem hostTurn_has_next (atomic : Bool) {s : State} (h : s.power = .off → s.accesses = []) :
    ∃ t, hostTurn atomic s = .next t := by
  unfold hostTurn
  split
  case h_1 => exact ⟨_, rfl⟩
  case h_2 a rest hcons =>
    split
    case h_1 hoff => exact absurd (h hoff) (by simp [hcons])
    case h_2 => exact ⟨_, rfl⟩
    case h_3 =>
      split
      case h_1 => exact ⟨_, rfl⟩
      case h_2 =>
        split
        case isTrue => exact ⟨_, rfl⟩
        case isFalse =>
          obtain ⟨t, ht, -⟩ := performAccess_performs atomic a { s with accesses := rest }
          exact ⟨t, ht⟩

theorem takeTurn_has_next (atomic : Bool) {turn : Turn} {s : State} (h : turn = .host → s.power = .off → s.accesses = []) :
    ∃ t, takeTurn atomic turn s = .next t := by
  cases turn with
  | fxu =>
    rw [takeTurn]
    split
    case isTrue =>
      obtain ⟨t, ht, -⟩ := fxuTurn_moves s
      exact ⟨t, ht⟩
    case isFalse => exact ⟨s, rfl⟩
  | host => exact hostTurn_has_next atomic (h rfl)
  | assertReset | releaseReset | powerDown => exact ⟨_, rfl⟩

theorem step_of_stopsNext {s : State} (h : s.StopsNext) : step s = .fault .accessWhilePoweredDown := by
  obtain ⟨hoff, hacc, hturn⟩ := h
  have hrel : releasedAccess s = none := releasedAccess_of_not_running (by simp [hoff])
  obtain ⟨hsched, hidle⟩ | ⟨ts, hsched⟩ := hturn
  · rw [step_synchronous_of_not_released hrel hsched, defaultTurn_of_idle hidle]
    exact hostTurn_stops true hoff hacc
  · rw [step_scheduled_of_not_released hrel hsched]
    exact hostTurn_stops false (s := { s with schedule := ts }) hoff hacc

theorem step_has_next_of_not_stopsNext {s : State} (h : ¬ s.StopsNext) : ∃ t, step s = .next t := by
  cases hrel : releasedAccess s with
  | some a =>
    obtain ⟨t, ht, -⟩ := performAccess_performs s.schedule.isEmpty a { s with held := none }
    exact ⟨t, by simp only [step, hrel, ht]⟩
  | none =>
    cases hsched : s.schedule with
    | nil =>
      rw [step_synchronous_of_not_released hrel hsched]
      refine takeTurn_has_next true fun hhost hoff => by_contra fun hacc => h ⟨hoff, hacc, .inl ⟨hsched, ?_⟩⟩
      rw [← s.not_busy_iff]
      exact Bool.eq_false_iff.2 fun hbusy => nomatch (defaultTurn_of_busy hbusy).symm.trans hhost
    | cons turn ts =>
      rw [step_scheduled_of_not_released hrel hsched]
      refine takeTurn_has_next false fun hhost hoff => by_contra fun hacc => h ⟨hoff, hacc, .inr ⟨ts, ?_⟩⟩
      rw [hsched, hhost]

/-! ### A presented word (R209) -/

theorem present_dropped (atomic : Bool) (w : Word32) {s : State} (herr : s.status.err = true) :
    present atomic w s = .next s.dropCommand := by
  simp [present, herr]

theorem present_legal (atomic : Bool) {w : Word32} {i : Instr} {s : State} (herr : s.status.err = false)
    (hdec : decode w = some i) : present atomic w s = legalCommand atomic w i s := by
  simp [present, herr, hdec]

/-! ### The step that runs a command (R211, R247) -/

theorem step_runs_cmd_write {s : State} {w : Word32} {i : Instr} {rest : List Access} (hready : ReadyForCommand s)
    (hsched : s.schedule = []) (hacc : s.accesses = .w32 0 w :: rest) (hdec : decode w = some i) :
    step s = exec i { s with accesses := rest, replies := .written :: s.replies } := by
  obtain ⟨hpow, hidle, hheld, herr⟩ := hready
  calc step s
      = hostTurn true s := by
        rw [step_synchronous_of_not_released (releasedAccess_eq_none (.inl hheld)) hsched, defaultTurn_of_idle hidle, takeTurn]
    _ = performAccess true (.w32 0 w) { s with accesses := rest } :=
        hostTurn_performs true hpow hheld hacc (.inl (s.not_busy_iff.2 hidle))
    _ = present true w (({ s with accesses := rest } : State).answer .written) := performAccess_cmd ..
    _ = exec i (({ s with accesses := rest } : State).answer .written) := present_legal true herr hdec

theorem fxuTurn_finishes {s : State} {f : Flight} {i : Instr} (hfl : s.flight = some f) (hdec : decode f.word = some i)
    (hstop : ∀ e, f.work = .sqrt e → e.bit = 0) : fxuTurn s = exec i s := by
  have hfinish : finish f s = exec i s := by simp only [finish, hdec]
  cases hwork : f.work with
  | sqrt e => simp only [fxuTurn, hfl, hwork, hstop e hwork, if_true, hfinish]
  | direct | muldiv => simp only [fxuTurn, hfl, hwork, hfinish]

theorem takeTurn_fxu_finishes (atomic : Bool) {s : State} {f : Flight} {i : Instr} (hpow : s.power = .running)
    (hfl : s.flight = some f) (hdec : decode f.word = some i) (hstop : ∀ e, f.work = .sqrt e → e.bit = 0) :
    takeTurn atomic .fxu s = exec i s := by
  rw [takeTurn, if_pos hpow, fxuTurn_finishes hfl hdec hstop]

theorem tableWord_toNat (w : Word32) : tableWord 32 w.toNat = w := by
  rw [tableWord, Nat.mod_eq_of_lt w.isLt, BitVec.ofNat_toNat, BitVec.setWidth_eq]

end Sys2Proof.Machine

namespace Sys2Proof.Proofs

open Sys2Proof.Machine Sys2Proof.Claims

/-- Settles O54: a step stops exactly in `StopsNext`, and then with the model's one fault. -/
theorem stepStopsOnlyWithoutPower : Obligations.StepStopsOnlyWithoutPower := by
  intro s
  by_cases hstops : s.StopsNext
  · rw [step_of_stopsNext hstops]
    exact ⟨nofun, fun .accessWhilePoweredDown => iff_of_true rfl hstops⟩
  · obtain ⟨t, ht⟩ := step_has_next_of_not_stopsNext hstops
    rw [ht]
    exact ⟨nofun, fun _ => iff_of_false nofun hstops⟩

/-- Settles O31: the CMD write answers and presents the word, whose acceptance latches what `latch` reads. -/
theorem cmdWriteDropsFaultsOrAccepts : Obligations.CmdWriteDropsFaultsOrAccepts := by
  intro s w
  simp only [performAccess_cmd]
  refine ⟨fun herr atomic => present_dropped atomic w herr, fun herr hdec atomic => ?_, fun i herr hdec => ?_⟩
  · exact ⟨_, present_illegal atomic herr hdec, State.takeFault_faulted ..⟩
  · exact ⟨latch w i (s.answer .written), present_legal false herr hdec, rfl, rfl, rfl, rfl, rfl⟩

/-- Settles O32: the host's turn at the CMD write and the FXU's at the completion; `withFetchWord` makes the unit ready and the
word its next access. -/
theorem stepRunsTheDecodedInstruction : Obligations.StepRunsTheDecodedInstruction := by
  refine ⟨fun s w i rest => step_runs_cmd_write, fun s f i ts hpow hfl hdec hstop => ?_, fun s w i hdec => ?_⟩
  · have hbusy : s.busy = true := s.busy_iff.2 ⟨f, hfl⟩
    refine ⟨fun hsched => ?_, fun hsched => ?_⟩
    · rw [step_scheduled (.inr hbusy) hsched]
      exact takeTurn_fxu_finishes false (s := { s with schedule := ts }) hpow hfl hdec hstop
    · rw [step_synchronous_of_not_released (releasedAccess_eq_none (.inr hbusy)) hsched, defaultTurn_of_busy hbusy]
      exact takeTurn_fxu_finishes true hpow hfl hdec hstop
  · exact step_runs_cmd_write (s := s.withFetchWord 32 w.toNat) ⟨rfl, rfl, rfl, rfl⟩ rfl rfl (by rw [tableWord_toNat, hdec])

end Sys2Proof.Proofs
end

section
/-! PROOFS. No command runs while a fault is recorded (60_exceptions.md R209, R210; 10_state.md R29). -/

namespace Sys2Proof.Machine

open Sys2Proof.Claims

/-! ### The record and the flags -/

/-- ERRCMD is kept, CAUSE is kept or cleared together with ERR, neither DONE nor OV is newly set, and nothing is in flight. -/
def RunsNoCommand (s t : State) : Prop :=
  t.flight = none ∧ t.errcmd = s.errcmd ∧
    ((t.status.err = true ∧ t.status.cause = s.status.cause) ∨ (t.status.err = false ∧ t.status.cause = .none)) ∧
    (t.status.done = true → s.status.done = true) ∧ (t.status.ov = true → s.status.ov = true)

/-- With ERR = 1 a presented word is discarded (R209). -/
theorem Presented.eq_dropCommand {w : Word32} {s t : State} (hp : Presented w s t) (herr : s.status.err = true) :
    t = s.dropCommand := by
  cases hp with
  | dropped _ eq => exact eq
  | illegal err _ _ => exact nomatch herr.symm.trans err
  | accepted _ err _ _ => exact nomatch herr.symm.trans err
  | executed _ err _ _ => exact nomatch herr.symm.trans err

section
variable {s t : State} (herr : s.status.err = true) (hidle : s.flight = none)
include herr hidle

theorem runsNoCommand_of_same (hfl : t.flight = s.flight) (herrcmd : t.errcmd = s.errcmd) (hst : t.status = s.status) :
    RunsNoCommand s t := by
  rw [RunsNoCommand, hst]
  exact ⟨hfl.trans hidle, herrcmd, .inl ⟨herr, rfl⟩, id, id⟩

theorem dropCommand_runsNoCommand : RunsNoCommand s s.dropCommand := ⟨hidle, rfl, .inl ⟨herr, rfl⟩, id, id⟩

/-- Bit 2 of a STATUS write returns from the fault (R210); no bit sets anything (R27). -/
theorem writeStatus_runsNoCommand (v : Word32) : RunsNoCommand s (s.writeStatus v) := by
  refine ⟨(s.writeStatus_flight v).trans hidle, s.writeStatus_errcmd v, ?_⟩
  rw [State.writeStatus_status]
  refine ⟨?_, fun hdone => (Bool.and_eq_true_iff.1 hdone).1, fun hov => (Bool.and_eq_true_iff.1 hov).1⟩
  cases v.getLsbD 2 with
  | true => exact .inr ⟨Bool.and_false _, rfl⟩
  | false => exact .inl ⟨(Bool.and_true _).trans herr, rfl⟩

theorem Wrote32.runsNoCommand {off : Offset} {v : Word32} (hw : Wrote32 off v s t) : RunsNoCommand s t := by
  cases hw with
  | status _ eq => subst eq; exact writeStatus_runsNoCommand herr hidle v
  | ctrl _ eq => subst eq; exact runsNoCommand_of_same herr hidle rfl rfl rfl
  | half _ eq => subst eq; exact runsNoCommand_of_same herr hidle rfl rfl rfl
  | ignored _ _ _ eq => subst eq; exact runsNoCommand_of_same herr hidle rfl rfl rfl

theorem Performed.runsNoCommand {a : Access} (hp : Performed a s t) : RunsNoCommand s t := by
  cases hp with
  | read r _ eq => subst eq; exact runsNoCommand_of_same herr hidle rfl rfl rfl
  | rejectedRead _ eq => subst eq; exact runsNoCommand_of_same herr hidle rfl rfl rfl
  | rejectedWrite _ eq => subst eq; exact runsNoCommand_of_same herr hidle rfl rfl rfl
  | command w _ pre =>
    rw [pre.eq_dropCommand herr]
    exact dropCommand_runsNoCommand (s := s.answer .written) herr hidle
  | write32 off v _ _ _ eq =>
    subst eq
    exact Wrote32.runsNoCommand (s := s.answer .written) herr hidle (write32_wrote off v _)
  | write64 off v _ _ eq => subst eq; exact runsNoCommand_of_same herr hidle rfl rfl rfl

end

/-! ### The data registers -/

/-- The access is a host write of a data register, and no other differs. -/
def WritesRegister (a : Access) (s t : State) : Prop :=
  ∃ off, IsWriteAt a off ∧ InDataRegisters off ∧ OtherRegistersSame off s t

/-- A write of one half or of a whole register: the register is the one whose bytes hold the offset (R51). -/
theorem writeX_writesRegister {a : Access} {off : Offset} (ha : IsWriteAt a off) (hin : inRegisters off = true)
    (s : State) (u : Word64) : WritesRegister a s ((s.answer .written).writeX (registerAt off) u) :=
  ⟨off, ha, (inRegisters_iff off).1 hin, (s.writeX_onlyRegisterAt u hin).2⟩

theorem Performed.same_or_writesRegister {a : Access} {s t : State} (hp : Performed a s t) (herr : s.status.err = true) :
    t.x = s.x ∨ WritesRegister a s t := by
  cases hp with
  | read r _ eq => subst eq; exact .inl rfl
  | rejectedRead _ eq => subst eq; exact .inl rfl
  | rejectedWrite _ eq => subst eq; exact .inl rfl
  | command w _ pre => rw [pre.eq_dropCommand herr]; exact .inl rfl
  | write32 off v cmd _ _ eq =>
    cases write32_wrote off v (s.answer .written) with
    | status _ eq' => rw [eq, eq']; exact .inl (State.writeStatus_x ..)
    | ctrl _ eq' => rw [eq, eq']; exact .inl rfl
    | half hin eq' => rw [eq, eq']; exact .inr (writeX_writesRegister (.inl ⟨v, cmd⟩) hin s _)
    | ignored _ _ _ eq' => rw [eq, eq']; exact .inl rfl
  | write64 off u cmd acc eq =>
    subst cmd eq
    obtain ⟨hin, -⟩ := (exists_lowOffset_iff off).1 (Access.w64_accepted_iff.1 acc)
    exact .inr (writeX_writesRegister (.inr ⟨u, rfl⟩) hin s u)

/-! ### One step -/

/-- A step of an idle unit with ERR = 1 resets the unit or runs no command, and then a register changes only by the access it
performs, the held one or the host's next. -/
theorem Stepped.reset_or_runsNoCommand {s t : State} (hs : Stepped s t) (herr : s.status.err = true)
    (hidle : s.flight = none) : t = t.toReset t.power ∨
      (RunsNoCommand s t ∧
        (t.x = s.x ∨ ∃ a, (s.held = some a ∨ s.accesses.head? = some a) ∧ WritesRegister a s t)) := by
  cases hs with
  | released a held _ _ eff =>
    exact .inr ⟨eff.runsNoCommand (s := { s with held := none }) herr hidle,
      (eff.same_or_writesRegister herr).imp_right fun hwrite => ⟨a, .inl held, hwrite⟩⟩
  | performed ts a rest acc _ _ _ eff =>
    exact .inr ⟨eff.runsNoCommand (s := { s with schedule := ts, accesses := rest }) herr hidle,
      (eff.same_or_writesRegister herr).imp_right fun hwrite => ⟨a, .inr (by rw [acc]; rfl), hwrite⟩⟩
  | held ts a rest _ _ fl _ _ => exact absurd hidle fl
  | fxu ts _ eff =>
    cases eff with
    | idle _ eq => subst eq; exact .inr ⟨runsNoCommand_of_same herr hidle rfl rfl rfl, .inl rfl⟩
    | shift f e fl _ _ _ => exact nomatch hidle.symm.trans fl
    | finished f fl _ _ => exact nomatch hidle.symm.trans fl
  | reset ts p _ eq => subst eq; exact .inl rfl
  | powerDown ts eq => subst eq; exact .inr ⟨runsNoCommand_of_same herr hidle hidle.symm rfl rfl, .inl rfl⟩
  | passed ts eq => subst eq; exact .inr ⟨runsNoCommand_of_same herr hidle rfl rfl rfl, .inl rfl⟩

end Sys2Proof.Machine

namespace Sys2Proof.Proofs

open Sys2Proof.Machine Sys2Proof.Claims

/-- Settles O38: a reset leaves R34's values, in which ERR is clear and nothing is in flight; every other step of the unit drops
a presented word, as the inversion of `step` shows case by case. -/
theorem noCommandRunsAfterAFault : Obligations.NoCommandRunsAfterAFault := by
  intro s t herr hidle hstep
  obtain hreset | ⟨⟨hfl, herrcmd, hcause, hdone, hov⟩, hregs⟩ := (step_next hstep).reset_or_runsNoCommand herr hidle
  · have hst : t.status = .reset := congrArg State.status hreset
    rw [hst]
    exact ⟨congrArg State.flight hreset, .inr hreset, .inr ⟨rfl, rfl⟩, nofun, nofun, .inr (.inl hreset)⟩
  · refine ⟨hfl, .inl herrcmd, hcause, hdone, hov, ?_⟩
    obtain hx | ⟨a, ha, off, hwrite, hin, hsame⟩ := hregs
    · exact .inl hx
    · exact .inr (.inr ⟨a, off, ha, hwrite, hin, hsame⟩)

end Sys2Proof.Proofs
end

section
/-! PROOFS. The interrupt line (60_exceptions.md R212). -/

namespace Sys2Proof.Machine

theorem State.irq_iff (s : State) :
    s.irq = true ↔ (s.status.done = true ∧ s.ctrl.doneie = true) ∨ (s.status.err = true ∧ s.ctrl.errie = true) := by
  simp only [State.irq, Bool.or_eq_true, Bool.and_eq_true]

theorem State.irq_eq_false_of_status {s : State} (hdone : s.status.done = false) (herr : s.status.err = false) :
    s.irq = false := by
  simp [State.irq, hdone, herr]

theorem State.irq_eq_false_of_ctrl {s : State} (hdoneie : s.ctrl.doneie = false) (herrie : s.ctrl.errie = false) :
    s.irq = false := by
  simp [State.irq, hdoneie, herrie]

/-- A completion sets DONE and a fault entry ERR; neither changes the enables. -/
theorem EndsCommand.done_or_err {rd : RegId} {w : Word32} {s t : State} (he : EndsCommand rd w s t) :
    t.ctrl = s.ctrl ∧ (t.status.done = true ∨ t.status.err = true) := by
  obtain ⟨r, ov, rfl⟩ | ⟨c, -, rfl⟩ := he
  · exact ⟨rfl, .inl rfl⟩
  · exact ⟨rfl, .inr rfl⟩

end Sys2Proof.Machine

namespace Sys2Proof.Proofs

open Sys2Proof.Machine

/-- Settles O47: the line is a function of four bits; the two writes clear one of each pair, and a command's end sets DONE or ERR
and keeps CTRL. -/
theorem interruptLineFollowsStatusAndEnables : Obligations.InterruptLineFollowsStatusAndEnables := by
  intro s t atomic v
  refine ⟨s.irq_iff, fun hdone herr hdoneie herrie => ?_, fun hperf h1 h2 => ?_, fun hperf h1 h2 => ?_,
    fun i hexec _ => ?_⟩
  · rw [State.irq, State.irq, hdone, herr, hdoneie, herrie]
  · obtain rfl : (s.answer .written).writeStatus v = t := Host.Outcome.next.inj hperf
    exact State.irq_eq_false_of_status (by simp [h1]) (by simp [h2])
  · obtain rfl : (s.answer .written).writeCtrl v = t := Host.Outcome.next.inj hperf
    exact State.irq_eq_false_of_ctrl h1 h2
  · obtain ⟨hctrl, hend⟩ := (exec_next hexec).done_or_err
    rw [t.irq_iff, hctrl]
    exact ⟨fun herr hie => .inl ⟨hend.resolve_right (by simp [herr]), hie⟩, fun herr hie => .inr ⟨herr, hie⟩⟩

end Sys2Proof.Proofs
end

section
/-! PROOFS. While reset is asserted only the platform moves anything (70_reset_and_hazards.md R240; log 9). -/

namespace Sys2Proof.Machine

/-- The FXU stands still, and the host's next access waits. -/
theorem takeTurn_inReset (atomic : Bool) {s : State} {turn : Turn} (hreset : s.power = .inReset)
    (hturn : turn = .fxu ∨ turn = .host) : takeTurn atomic turn s = .next s := by
  obtain rfl | rfl := hturn
  · simp [takeTurn, hreset]
  · cases hacc : s.accesses with
    | nil => simp only [takeTurn, hostTurn, hacc]
    | cons a rest => simp only [takeTurn, hostTurn, hacc, hreset]

theorem defaultTurn_fxu_or_host (s : State) : defaultTurn s = .fxu ∨ defaultTurn s = .host := by
  cases hbusy : s.busy with
  | true => exact .inl (defaultTurn_of_busy hbusy)
  | false => exact .inr (defaultTurn_of_idle (s.not_busy_iff.1 hbusy))

/-- A step with reset asserted and the platform not next lets the turn pass. -/
theorem step_inReset {s : State} (hreset : s.power = .inReset)
    (hturn : ∀ turn ts, s.schedule = turn :: ts → turn = .fxu ∨ turn = .host) :
    step s = .next { s with schedule := s.schedule.tail } := by
  have hrel : releasedAccess s = none := releasedAccess_of_not_running (by simp [hreset])
  cases hsched : s.schedule with
  | nil =>
    have hsame : { s with schedule := [].tail } = s := by rw [List.tail_nil, ← hsched]
    rw [step_synchronous_of_not_released hrel hsched, takeTurn_inReset true hreset (defaultTurn_fxu_or_host s), hsame]
  | cons turn ts =>
    rw [step_scheduled_of_not_released hrel hsched]
    exact takeTurn_inReset false (s := { s with schedule := ts }) hreset (hturn turn ts hsched)

end Sys2Proof.Machine

namespace Sys2Proof.Proofs

open Sys2Proof.Machine Sys2Proof.Claims

/-- Settles O49: with the platform's three turns excluded the turn is the FXU's or the host's, and it passes. -/
theorem nothingHappensDuringReset : Obligations.NothingHappensDuringReset := by
  intro s t hreset hstep hrelease hpowerDown hassert
  have hturn (turn : Turn) (ts : List Turn) (hsched : s.schedule = turn :: ts) : turn = .fxu ∨ turn = .host := by
    cases turn with
    | fxu => exact .inl rfl
    | host => exact .inr rfl
    | releaseReset => exact absurd hsched (hrelease ts)
    | powerDown => exact absurd hsched (hpowerDown ts)
    | assertReset => exact absurd hsched (hassert ts)
  rw [step_inReset hreset hturn] at hstep
  cases hstep
  exact ⟨⟨rfl, rfl, rfl, rfl, rfl, rfl, rfl⟩, rfl, rfl⟩

end Sys2Proof.Proofs
end

section
/-! PROOFS. A command in flight, worked on turn by turn, ends, and ends as its atomic execution does (10_state.md R32, 20_memory.md
R61, 43_sqrt.md R171 item 2, 70_reset_and_hazards.md R246, R247). -/

namespace Sys2Proof.Machine

open Sys2Proof.Claims

/-! ### How many FXU turns a unit still works -/

/-- The shifts of `bit`, two places each, that the square-root engine makes before it stops; the other units make none. -/
def Work.shiftsLeft : Work → Nat
  | .direct => 0
  | .muldiv _ => 0
  | .sqrt e => (e.bit.size + 1) / 2

/-- A unit has stopped after `k` turns exactly if no more than `k` shifts were left. -/
theorem Work.shiftsLeft_le_iff (u : Work) (k : Nat) : u.shiftsLeft ≤ k ↔ ∀ e, u.after k = .sqrt e → e.bit = 0 := by
  cases u with
  | direct => exact iff_of_true (Nat.zero_le k) nofun
  | muldiv wide => exact iff_of_true (Nat.zero_le k) nofun
  | sqrt e =>
    have hsize : (e.bit.size + 1) / 2 ≤ k ↔ e.bit.size ≤ 2 * k := by omega
    have hbit : (Engine.run k e).bit = 0 ↔ e.bit < 2 ^ (2 * k) := by
      rw [Engine.run_bit, Nat.shiftRight_eq_div_pow, Nat.div_eq_zero_iff_lt (Nat.two_pow_pos _)]
    rw [Work.shiftsLeft, hsize, Nat.size_le, ← hbit]
    exact ⟨fun h e' he => Work.sqrt.inj he ▸ h, fun h => h _ rfl⟩

/-- While shifts are left the unit is the engine, running. -/
theorem Work.exists_sqrt_of_lt {u : Work} {k : Nat} (hk : k < u.shiftsLeft) : ∃ e, u.after k = .sqrt e ∧ e.bit ≠ 0 := by
  have hrunning := (not_congr (u.shiftsLeft_le_iff k)).1 (Nat.not_le.2 hk)
  push Not at hrunning
  exact hrunning

theorem Work.shiftsLeft_after_le (u : Work) (k : Nat) : (u.after k).shiftsLeft ≤ u.shiftsLeft := by
  cases u with
  | direct => exact Nat.le_refl 0
  | muldiv wide => exact Nat.le_refl 0
  | sqrt e =>
    have hsize : (Engine.run k e).bit.size ≤ e.bit.size := by
      rw [Engine.run_bit]
      exact Nat.size_le_size (Nat.shiftRight_le ..)
    exact Nat.div_le_div_right (Nat.add_le_add_right hsize 1)

/-- The engine makes W/2 shifts (R171 item 2). -/
theorem shiftsLeft_engineStart {w : Nat} (hw : w = 64 ∨ w = 128) (v : Nat) :
    (Work.sqrt (engineStart w v)).shiftsLeft = w / 2 := by
  rw [Work.shiftsLeft, engineStart_bit, Nat.size_pow]
  omega

/-- No unit is started that works longer than the 128-bit engine. -/
theorem shiftsLeft_startWork_le (i : Instr) (s : State) : (startWork i s).shiftsLeft ≤ 64 := by
  have hsqrt {w : Nat} (hw : w = 64 ∨ w = 128) (v : Nat) : (Work.sqrt (engineStart w v)).shiftsLeft ≤ 64 := by
    rw [shiftsLeft_engineStart hw]
    omega
  have hdirect : Work.direct.shiftsLeft ≤ 64 := Nat.zero_le 64
  have hmuldiv (wide : Int) : (Work.muldiv wide).shiftsLeft ≤ 64 := Nat.zero_le 64
  cases i with
  | addFx32 | addFx64 | subFx32 | subFx64 | scale => exact hdirect
  | mulFx32 | mulFx64 | macFx32 | macFx64 => exact hmuldiv _
  | divFx32 | divFx64 =>
    rw [startWork]
    split
    · exact hdirect
    · exact hmuldiv _
  | sqrtFx32 =>
    simp only [startWork]
    split
    · exact hdirect
    · exact hsqrt (.inl rfl) _
  | sqrtFx64 =>
    simp only [startWork]
    split
    · exact hdirect
    · split
      · split
        · exact hdirect
        · exact hsqrt (.inl rfl) _
      · exact hsqrt (.inr rfl) _

/-! ### The FXU's turns until the unit stops -/

/-- The hidden state `k` FXU turns later. -/
def Flight.after (k : Nat) (f : Flight) : Flight := { f with work := f.work.after k }

theorem Flight.after_zero (f : Flight) : f.after 0 = f := by
  obtain ⟨word, op1, op2, acc, iw, work⟩ := f
  cases work <;> rfl

/-- While shifts are left a turn of the FXU is one of them, and changes nothing else. -/
theorem fxuTurn_shifts {s : State} {f : Flight} {k : Nat} (hfl : s.flight = some (f.after k)) (hk : k < f.work.shiftsLeft) :
    fxuTurn s = .next { s with flight := some (f.after (k + 1)) } := by
  obtain ⟨e, hwork, hbit⟩ := Work.exists_sqrt_of_lt hk
  have hsqrt : (f.after k).work = .sqrt e := hwork
  have hnext : f.after (k + 1) = { f.after k with work := .sqrt e.advance } := by
    rw [Flight.after, Work.after_succ_of_sqrt hwork]
    rfl
  simp only [fxuTurn, hfl, hsqrt, hbit, if_false, hnext]

theorem fxuTurns_succ_of_next {s t : State} (h : fxuTurn s = .next t) (n : Nat) : fxuTurns (n + 1) s = fxuTurns n t := by
  rw [fxuTurns, h]

theorem run_succ_of_next {s t : State} (h : step s = .next t) (n : Nat) :
    Sys2Proof.core.run (n + 1) s = Sys2Proof.core.run n t := by
  simp only [Host.Core.run, Sys2Proof.core, h]

/-- A scheduled turn of the FXU while a command is in flight. -/
theorem step_scheduled_fxu {s : State} (hpow : s.power = .running) (hbusy : s.busy = true) (ts : List Turn) :
    step { s with schedule := .fxu :: ts } = fxuTurn { s with schedule := ts } :=
  (step_scheduled (s := { s with schedule := .fxu :: ts }) (.inr hbusy) rfl).trans (if_pos hpow)

/-- A run of the FXU's turns begins with the shifts that are left. -/
theorem fxuTurns_shifts {s : State} {f : Flight} (hfl : s.flight = some f) {k : Nat} (hk : k ≤ f.work.shiftsLeft) (m : Nat) :
    fxuTurns (k + m) s = fxuTurns m { s with flight := some (f.after k) } := by
  induction k generalizing m with
  | zero => rw [Nat.zero_add, f.after_zero, ← hfl]
  | succ k ih =>
    have hturn := fxuTurn_shifts (s := { s with flight := some (f.after k) }) rfl hk
    rw [Nat.succ_add_eq_add_succ, ih (Nat.le_of_lt hk), fxuTurns_succ_of_next hturn]

/-- So does a run of the machine in which the next turns are the FXU's. -/
theorem run_shifts {s : State} {f : Flight} (hpow : s.power = .running) (hfl : s.flight = some f) {k : Nat}
    (hk : k ≤ f.work.shiftsLeft) (m : Nat) (ts : List Turn) :
    Sys2Proof.core.run (k + m) { s with schedule := List.replicate k .fxu ++ ts } =
      Sys2Proof.core.run m { s with flight := some (f.after k), schedule := ts } := by
  induction k generalizing m ts with
  | zero => rw [Nat.zero_add, f.after_zero, ← hfl]; rfl
  | succ k ih =>
    have hturn : step { s with flight := some (f.after k), schedule := .fxu :: ts } =
        .next { s with flight := some (f.after (k + 1)), schedule := ts } :=
      (step_scheduled_fxu (s := { s with flight := some (f.after k) }) hpow rfl ts).trans (fxuTurn_shifts rfl hk)
    rw [Nat.succ_add_eq_add_succ, List.replicate_succ', List.append_assoc, ih (Nat.le_of_lt hk)]
    exact run_succ_of_next hturn m

/-! ### The completion from what acceptance latched -/

/-- The unit at the completion of the instruction `i` accepted in `s`: its operands latched, its unit stopped (R32). -/
def State.worked (w : Word32) (i : Instr) (s : State) : State :=
  { s with flight := some (latchAfter (startWork i s).shiftsLeft w i s) }

section
variable {s : State} (w : Word32) {i : Instr}

theorem worked_flight : (s.worked w i).flight = some ((latch w i s).after (latch w i s).work.shiftsLeft) := rfl

/-- A command that ends leaves no trace of its hidden state. -/
theorem complete_worked (rd : RegId) (r : Int) (ov : Bool) : (s.worked w i).complete rd r ov = s.complete rd r ov := rfl

theorem takeFault_worked (c : Cause) (w' : Word32) : (s.worked w i).takeFault c w' = s.takeFault c w' := rfl

variable (hidle : s.flight = none)
include hidle

theorem opA_worked (f : Fmt) {r : RegId} (h : i.src1 = some r) : (s.worked w i).opA f r = s.opA f r := by
  rw [s.opA_of_idle hidle, State.opA, State.source, worked_flight]
  simp [Flight.after, latch, h]

theorem opB_worked (f : Fmt) {r : RegId} (h : i.src2 = some r) : (s.worked w i).opB f r = s.opB f r := by
  rw [s.opB_of_idle hidle, State.opB, State.source, worked_flight]
  simp [Flight.after, latch, h]

theorem opC_worked (f : Fmt) {r : RegId} (h : i.srcAcc = some r) : (s.worked w i).opC f r = s.opC f r := by
  rw [s.opC_of_idle hidle, State.opC, State.source, worked_flight]
  simp [Flight.after, latch, h]

theorem iw_worked : (s.worked w i).iw = s.iw := by
  rw [s.iw_of_idle hidle]
  rfl

theorem widened_worked {p : Int} (h : startWork i s = .muldiv p) : (s.worked w i).widened p = s.widened p := by
  rw [s.widened_of_idle hidle, State.widened, worked_flight]
  simp [Flight.after, latch, h, Work.after]

/-- The stopped engine holds its answer. -/
theorem root_worked {width v : Nat} (hw : width = 64 ∨ width = 128) (h : startWork i s = .sqrt (engineStart width v)) :
    (s.worked w i).root width v = s.root width v := by
  rw [s.root_of_idle hidle, State.root, worked_flight]
  simp [Flight.after, latch, h, Work.after, shiftsLeft_engineStart hw, isqrtEngine]

theorem product_worked {f : Fmt} {iw : Bool} {a b : Int} (h : startWork i s = .muldiv (mulWide f iw a b)) :
    (s.worked w i).product f iw a b = s.product f iw a b := by
  rw [State.product, State.product, widened_worked w hidle h]

theorem quotient_worked {f : Fmt} {iw : Bool} {a b : Int} (h : startWork i s = .muldiv (divWide f iw a)) :
    (s.worked w i).quotient f iw a b = s.quotient f iw a b := by
  rw [State.quotient, State.quotient, widened_worked w hidle h]

theorem multiply_worked {f : Fmt} {iw : Bool} {rd : RegId} {a b : Int} (h : startWork i s = .muldiv (mulWide f iw a b)) :
    (s.worked w i).multiply f iw rd a b = s.multiply f iw rd a b := by
  rw [State.multiply, product_worked w hidle h]
  rfl

theorem accumulate_worked {f : Fmt} {iw : Bool} {rd : RegId} {c a b : Int}
    (h : startWork i s = .muldiv (mulWide f iw a b)) :
    (s.worked w i).accumulate f iw rd c a b = s.accumulate f iw rd c a b := by
  rw [State.accumulate, product_worked w hidle h]
  rfl

theorem divide_worked {f : Fmt} {iw : Bool} {rd : RegId} {a b : Int} {w' : Word32}
    (h : startWork i s = if b = 0 then .direct else .muldiv (divWide f iw a)) :
    (s.worked w i).divide f iw rd a b w' = s.divide f iw rd a b w' := by
  rw [State.divide, State.divide]
  by_cases hb : b = 0
  · rw [if_pos hb, if_pos hb, takeFault_worked]
  · rw [if_neg hb] at h
    rw [if_neg hb, if_neg hb, quotient_worked w hidle h]
    rfl

theorem exec_worked_sqrtFx32 (rd rs1 : RegId) :
    exec (.sqrtFx32 rd rs1) (s.worked w (.sqrtFx32 rd rs1)) = exec (.sqrtFx32 rd rs1) s := by
  simp only [exec, execSqrtFx32, opA_worked w hidle .fx32 (i := .sqrtFx32 rd rs1) (r := rs1) rfl]
  by_cases hneg : s.opA .fx32 rs1 < 0
  · simp only [hneg, if_true, takeFault_worked]
  · have hwork : startWork (.sqrtFx32 rd rs1) s = .sqrt (engineStart 64 (s.opA .fx32 rs1 * Fmt.scale .fx32).toNat) := if_neg hneg
    simp only [hneg, if_false, root_worked w hidle (.inl rfl) hwork, complete_worked]

theorem exec_worked_sqrtFx64 (rd rs1 : RegId) :
    exec (.sqrtFx64 rd rs1) (s.worked w (.sqrtFx64 rd rs1)) = exec (.sqrtFx64 rd rs1) s := by
  simp only [exec, execSqrtFx64, opA_worked w hidle .fx64 (i := .sqrtFx64 rd rs1) (r := rs1) rfl, iw_worked w hidle,
    takeFault_worked, complete_worked]
  split
  case isTrue => rfl
  case isFalse hneg =>
    split
    case isFalse hiw =>
      have hwork : startWork (.sqrtFx64 rd rs1) s = .sqrt (engineStart 128 (s.opA .fx64 rs1 * Fmt.scale .fx64).toNat) :=
        (if_neg hneg).trans (if_neg hiw)
      rw [root_worked w hidle (.inr rfl) hwork]
    case isTrue hiw =>
      split
      case isTrue => rfl
      case isFalse hovf =>
        have hwork : startWork (.sqrtFx64 rd rs1) s =
            .sqrt (engineStart 64 (wrap 64 (s.opA .fx64 rs1 * Fmt.scale .fx64)).toNat) :=
          (if_neg hneg).trans ((if_pos hiw).trans (if_neg hovf))
        rw [root_worked w hidle (.inl rfl) hwork]

/-- The completion from the latched operands and the stopped unit does what the instruction does in the idle unit (R247). -/
theorem exec_worked (i : Instr) : exec i (s.worked w i) = exec i s := by
  have hA {f : Fmt} {r : RegId} (h : i.src1 = some r) := opA_worked w hidle f h
  have hB {f : Fmt} {r : RegId} (h : i.src2 = some r) := opB_worked w hidle f h
  have hC {f : Fmt} {r : RegId} (h : i.srcAcc = some r) := opC_worked w hidle f h
  have hiw := iw_worked (i := i) w hidle
  cases i with
  | addFx32 rd rs1 rs2 =>
    rw [exec, execAddFx32, hA rfl, hB rfl]
    rfl
  | addFx64 rd rs1 rs2 =>
    rw [exec, execAddFx64, hA rfl, hB rfl]
    rfl
  | subFx32 rd rs1 rs2 =>
    rw [exec, execSubFx32, hA rfl, hB rfl]
    rfl
  | subFx64 rd rs1 rs2 =>
    rw [exec, execSubFx64, hA rfl, hB rfl]
    rfl
  | mulFx32 rd rs1 rs2 =>
    rw [exec, execMulFx32, hA rfl, hB rfl, multiply_worked w hidle rfl]
    rfl
  | mulFx64 rd rs1 rs2 =>
    rw [exec, execMulFx64, hA rfl, hB rfl, hiw, multiply_worked w hidle rfl]
    rfl
  | divFx32 rd rs1 rs2 =>
    rw [exec, execDivFx32, hA rfl, hB rfl, divide_worked w hidle rfl]
    rfl
  | divFx64 rd rs1 rs2 =>
    rw [exec, execDivFx64, hA rfl, hB rfl, hiw, divide_worked w hidle rfl]
    rfl
  | macFx32 rd rs1 rs2 =>
    rw [exec, execMacFx32, hA rfl, hB rfl, hC rfl, accumulate_worked w hidle rfl]
    rfl
  | macFx64 rd rs1 rs2 =>
    rw [exec, execMacFx64, hA rfl, hB rfl, hC rfl, hiw, accumulate_worked w hidle rfl]
    rfl
  | sqrtFx32 rd rs1 => exact exec_worked_sqrtFx32 w hidle rd rs1
  | sqrtFx64 rd rs1 => exact exec_worked_sqrtFx64 w hidle rd rs1
  | scale rd idx => cases hrom : romEntry idx <;> simp only [exec, execScale, hrom, complete_worked, takeFault_worked]

end

/-! ### The whole command -/

/-- The host's turn at the CMD write of a ready unit: the word is accepted (R209). -/
theorem step_accepts {s : State} {w : Word32} {i : Instr} {rest : List Access} {ts : List Turn} (hready : ReadyForCommand s)
    (hsched : s.schedule = .host :: ts) (hacc : s.accesses = .w32 0 w :: rest) (hdec : decode w = some i) :
    step s = .next (({ s with accesses := rest, schedule := ts, replies := .written :: s.replies } : State).accept w i) := by
  obtain ⟨hpow, hidle, hheld, herr⟩ := hready
  calc step s
      = hostTurn false { s with schedule := ts } := step_scheduled (.inl hheld) hsched
    _ = performAccess false (.w32 0 w) { s with schedule := ts, accesses := rest } :=
        hostTurn_performs false hpow hheld hacc (.inl (s.not_busy_iff.2 hidle))
    _ = present false w (({ s with schedule := ts, accesses := rest } : State).answer .written) := performAccess_cmd ..
    _ = .next ((({ s with schedule := ts, accesses := rest } : State).answer .written).accept w i) := present_legal false herr hdec

/-- The turn after the last shift completes the command (R211). -/
theorem fxuTurn_after_shifts {s : State} {f : Flight} {i : Instr} (hfl : s.flight = some (f.after f.work.shiftsLeft))
    (hdec : decode f.word = some i) : fxuTurn s = exec i s :=
  fxuTurn_finishes hfl hdec ((f.work.shiftsLeft_le_iff _).1 (Nat.le_refl _))

/-- An accepted word, worked on until its unit stops and then completed, leaves what its execution leaves (R247). -/
theorem run_accepted {s : State} {w : Word32} {i : Instr} (hpow : s.power = .running) (hidle : s.flight = none)
    (hdec : decode w = some i) :
    Sys2Proof.core.run ((startWork i s).shiftsLeft + 1)
        (({ s with schedule := List.replicate ((startWork i s).shiftsLeft + 1) .fxu ++ s.schedule } : State).accept w i) =
      exec i s := by
  have hlatch (ts : List Turn) : latch w i { s with schedule := ts } = latch w i s := by
    simp only [latch, startWork_congr (s := s) (t := { s with schedule := ts }) rfl rfl rfl i, State.readX_eq]
  obtain ⟨t, ht, -⟩ := exec_ends i s
  have hlast : step { s.worked w i with schedule := .fxu :: s.schedule } = .next t := by
    rw [← ht, ← exec_worked w hidle i, step_scheduled_fxu (s := s.worked w i) hpow rfl]
    exact fxuTurn_after_shifts (worked_flight w) hdec
  have hshifts := run_shifts (s := { s with flight := some (latch w i s) }) hpow rfl (Nat.le_refl _) 1 (.fxu :: s.schedule)
  rw [ht, State.accept, hlatch, List.replicate_succ', List.append_assoc]
  exact hshifts.trans (run_succ_of_next hlast 0)

/-- A command in flight ends with the turn after its unit's last shift. -/
theorem fxuTurns_ends {s : State} {f : Flight} {i : Instr} (hfl : s.flight = some f) (hdec : decode f.word = some i) :
    ∃ t, fxuTurns (f.work.shiftsLeft + 1) s = .next t ∧ t.flight = none := by
  obtain ⟨t, ht, hend⟩ := exec_ends i { s with flight := some (f.after f.work.shiftsLeft) }
  refine ⟨t, ?_, hend.flight⟩
  rw [fxuTurns_shifts hfl (Nat.le_refl _) 1]
  exact fxuTurns_succ_of_next ((fxuTurn_after_shifts rfl hdec).trans ht) 0

end Sys2Proof.Machine

namespace Sys2Proof.Proofs

open Sys2Proof.Machine Sys2Proof.Claims

/-- Settles O34: the unit started at acceptance has at most 64 shifts to make, and the turn after the last one ends the command. -/
theorem everyCommandInFlightEnds : Obligations.EveryCommandInFlightEnds := by
  intro s hlatched hbusy
  obtain ⟨f, hfl⟩ := s.busy_iff.1 hbusy
  obtain ⟨-, -, i, k, hdec, hlatch⟩ := hlatched f hfl
  have hwork : f.work = (startWork i s.idle).after k := congrArg Flight.work hlatch
  have hshifts : f.work.shiftsLeft ≤ 64 := by
    rw [hwork]
    exact (Work.shiftsLeft_after_le _ k).trans (shiftsLeft_startWork_le i s.idle)
  obtain ⟨t, ht, hidle⟩ := fxuTurns_ends hfl hdec
  exact ⟨f.work.shiftsLeft + 1, t, Nat.le_add_left .., Nat.succ_le_succ hshifts, ht, t.not_busy_iff.2 hidle⟩

/-- Settles O33: one turn more than the unit has shifts. The host's turn accepts the word, the shifts leave the operands as latched
and the unit with its answer, and the completion computes from these what the execution computes from the registers. -/
theorem hiddenWorkingAgreesWithAtomicExecution : Obligations.HiddenWorkingAgreesWithAtomicExecution := by
  intro s w i rest hready hacc hdec
  have ⟨hpow, hidle, _, _⟩ := hready
  refine ⟨(startWork i s).shiftsLeft + 1, Nat.le_add_left .., Nat.succ_le_succ (shiftsLeft_startWork_le i s), fun ts => ?_⟩
  have hwork : startWork i { s with accesses := rest, schedule := ts, replies := .written :: s.replies } = startWork i s :=
    startWork_congr rfl rfl rfl i
  have haccept := step_accepts (s := { s with schedule := .host :: (List.replicate ((startWork i s).shiftsLeft + 1) .fxu ++ ts) })
    hready rfl hacc hdec
  rw [← hwork] at haccept ⊢
  exact (run_succ_of_next haccept _).trans (run_accepted hpow hidle hdec)

end Sys2Proof.Proofs
end
